-- ==== Sys2Proof/Word.lean ====
section
/-! DEFINITION. The word types of the machine and their plainest arithmetic: bytes, 16-bit words, register numbers (R7, R20, R93). -/

namespace Sys2Proof

/-- An 8-bit value: a register, a timer, a memory byte (R7). All values are unsigned. -/
abbrev Byte := BitVec 8

/-- A 16-bit value: an instruction word, `pc`, `i`, a stack entry (R7). -/
abbrev Word := BitVec 16

/-- A 12-bit address field NNN (R93). -/
abbrev Addr := BitVec 12

/-- A register number X or Y, 0..15: every field value names an existing register (R20). -/
abbrev Reg := Fin 16

/-- A sprite row count N, 0..15 (R93). -/
abbrev Rows := Fin 16

/-- `zext_16` of a byte (R8). -/
abbrev Byte.zext16 (b : Byte) : Word := b.setWidth 16

/-- `zext_16` of an address field (R8, R93). -/
abbrev Addr.zext16 (a : Addr) : Word := a.setWidth 16

end Sys2Proof
end

