-- ==== Sys2Proof/Syntax.lean ====
section
/-! DEFINITION. The instruction set: one constructor for each of the 34 rows of the opcode map (R96), with its operands (R92, R93). -/

namespace Sys2Proof

/-- An instruction, after decoding. The names are those of the decode function of R98. -/
inductive Instr where
  /-- 00E0 (R140). -/
  | cls
  /-- 00EE (R141). -/
  | ret
  /-- 1NNN (R142). -/
  | jp (nnn : Addr)
  /-- 2NNN (R143). -/
  | call (nnn : Addr)
  /-- 3XNN (R150). -/
  | seImm (x : Reg) (nn : Byte)
  /-- 4XNN (R151). -/
  | sneImm (x : Reg) (nn : Byte)
  /-- 5XY0 (R152). -/
  | seReg (x y : Reg)
  /-- 6XNN (R160). -/
  | ldImm (x : Reg) (nn : Byte)
  /-- 7XNN (R161). -/
  | addImm (x : Reg) (nn : Byte)
  /-- 8XY0 (R162). -/
  | ldReg (x y : Reg)
  /-- 8XY1 (R163). -/
  | or (x y : Reg)
  /-- 8XY2 (R164). -/
  | and (x y : Reg)
  /-- 8XY3 (R165). -/
  | xor (x y : Reg)
  /-- 8XY4 (R166). -/
  | addReg (x y : Reg)
  /-- 8XY5 (R167). -/
  | sub (x y : Reg)
  /-- 8XY6 (R168). -/
  | shr (x y : Reg)
  /-- 8XY7 (R169). -/
  | subn (x y : Reg)
  /-- 8XYE (R170). -/
  | shl (x y : Reg)
  /-- 9XY0 (R153). -/
  | sneReg (x y : Reg)
  /-- ANNN (R180). -/
  | ldI (nnn : Addr)
  /-- BNNN (R181). -/
  | jpV0 (nnn : Addr)
  /-- CXNN (R182). -/
  | rnd (x : Reg) (nn : Byte)
  /-- DXYN (R190). -/
  | drw (x y : Reg) (n : Rows)
  /-- EX9E (R200). -/
  | skp (x : Reg)
  /-- EXA1 (R201). -/
  | sknp (x : Reg)
  /-- FX07 (R210). -/
  | ldFromDT (x : Reg)
  /-- FX0A (R211). -/
  | ldKey (x : Reg)
  /-- FX15 (R212). -/
  | ldDT (x : Reg)
  /-- FX18 (R213). -/
  | ldST (x : Reg)
  /-- FX1E (R214). -/
  | addI (x : Reg)
  /-- FX29 (R215). -/
  | ldF (x : Reg)
  /-- FX33 (R216). -/
  | ldB (x : Reg)
  /-- FX55 (R217). -/
  | stRegs (x : Reg)
  /-- FX65 (R218). -/
  | ldRegs (x : Reg)
  deriving DecidableEq, Repr

end Sys2Proof
end

