-- ==== Sys2Proof/WellFormed.lean ====
section
/-! DEFINITION. What is well formed: the opcode map of R96 as data, the check that a word matches a row of it (R94, R95), and the check of an
instruction against the row of its mnemonic. -/

namespace Sys2Proof

/-- The six formats of R92. -/
inductive Format where
  | fixed
  | nnn
  | xnn
  | xy
  | xyn
  | x
  deriving DecidableEq, Repr

/-- One row of the opcode map (R96): a word `op` selects it iff `op & mask = value`. The mnemonics are `opcode_table.json`'s. -/
structure OpcodeRow where
  mnemonic : String
  mask     : Word
  value    : Word
  format   : Format
  deriving DecidableEq, Repr

/-- `op & mask = match` (R96). -/
def OpcodeRow.selects (r : OpcodeRow) (op : Word) : Bool := op &&& r.mask == r.value

/-- Rows 1 to 9 of R96. -/
def opcodeRowsFlow : List OpcodeRow :=
  [⟨"CLS", 0xFFFF, 0x00E0, .fixed⟩, ⟨"RET", 0xFFFF, 0x00EE, .fixed⟩, ⟨"JP_NNN", 0xF000, 0x1000, .nnn⟩,
   ⟨"CALL_NNN", 0xF000, 0x2000, .nnn⟩, ⟨"SE_Vx__NN", 0xF000, 0x3000, .xnn⟩, ⟨"SNE_Vx__NN", 0xF000, 0x4000, .xnn⟩,
   ⟨"SE_Vx__Vy", 0xF00F, 0x5000, .xy⟩, ⟨"LD_Vx__NN", 0xF000, 0x6000, .xnn⟩, ⟨"ADD_Vx__NN", 0xF000, 0x7000, .xnn⟩]

/-- Rows 10 to 18 of R96. -/
def opcodeRowsAlu : List OpcodeRow :=
  [⟨"LD_Vx__Vy", 0xF00F, 0x8000, .xy⟩, ⟨"OR_Vx__Vy", 0xF00F, 0x8001, .xy⟩, ⟨"AND_Vx__Vy", 0xF00F, 0x8002, .xy⟩,
   ⟨"XOR_Vx__Vy", 0xF00F, 0x8003, .xy⟩, ⟨"ADD_Vx__Vy", 0xF00F, 0x8004, .xy⟩, ⟨"SUB_Vx__Vy", 0xF00F, 0x8005, .xy⟩,
   ⟨"SHR_Vx__Vy", 0xF00F, 0x8006, .xy⟩, ⟨"SUBN_Vx__Vy", 0xF00F, 0x8007, .xy⟩, ⟨"SHL_Vx__Vy", 0xF00F, 0x800E, .xy⟩]

/-- Rows 19 to 25 of R96. -/
def opcodeRowsIndex : List OpcodeRow :=
  [⟨"SNE_Vx__Vy", 0xF00F, 0x9000, .xy⟩, ⟨"LD_I__NNN", 0xF000, 0xA000, .nnn⟩, ⟨"JP_V0__NNN", 0xF000, 0xB000, .nnn⟩,
   ⟨"RND_Vx__NN", 0xF000, 0xC000, .xnn⟩, ⟨"DRW_Vx__Vy__N", 0xF000, 0xD000, .xyn⟩, ⟨"SKP_Vx", 0xF0FF, 0xE09E, .x⟩,
   ⟨"SKNP_Vx", 0xF0FF, 0xE0A1, .x⟩]

/-- Rows 26 to 34 of R96. -/
def opcodeRowsFx : List OpcodeRow :=
  [⟨"LD_Vx__DT", 0xF0FF, 0xF007, .x⟩, ⟨"LD_Vx__K", 0xF0FF, 0xF00A, .x⟩, ⟨"LD_DT__Vx", 0xF0FF, 0xF015, .x⟩,
   ⟨"LD_ST__Vx", 0xF0FF, 0xF018, .x⟩, ⟨"ADD_I__Vx", 0xF0FF, 0xF01E, .x⟩, ⟨"LD_F__Vx", 0xF0FF, 0xF029, .x⟩,
   ⟨"LD_B__Vx", 0xF0FF, 0xF033, .x⟩, ⟨"LD__I___Vx", 0xF0FF, 0xF055, .x⟩, ⟨"LD_Vx___I", 0xF0FF, 0xF065, .x⟩]

/-- The whole opcode map (R96): 34 rows. -/
def opcodeTable : List OpcodeRow := opcodeRowsFlow ++ opcodeRowsAlu ++ opcodeRowsIndex ++ opcodeRowsFx

/-- A word is well formed, "recognised", iff it matches a row of the opcode map; every fixed bit is checked (R94, R95). -/
def Word.recognised (op : Word) : Bool := opcodeTable.any (·.selects op)

/-- The row mnemonic of each instruction, as `opcode_table.json` spells it. -/
def Instr.mnemonic : Instr → String
  | .cls => "CLS"
  | .ret => "RET"
  | .jp _ => "JP_NNN"
  | .call _ => "CALL_NNN"
  | .seImm _ _ => "SE_Vx__NN"
  | .sneImm _ _ => "SNE_Vx__NN"
  | .seReg _ _ => "SE_Vx__Vy"
  | .ldImm _ _ => "LD_Vx__NN"
  | .addImm _ _ => "ADD_Vx__NN"
  | .ldReg _ _ => "LD_Vx__Vy"
  | .or _ _ => "OR_Vx__Vy"
  | .and _ _ => "AND_Vx__Vy"
  | .xor _ _ => "XOR_Vx__Vy"
  | .addReg _ _ => "ADD_Vx__Vy"
  | .sub _ _ => "SUB_Vx__Vy"
  | .shr _ _ => "SHR_Vx__Vy"
  | .subn _ _ => "SUBN_Vx__Vy"
  | .shl _ _ => "SHL_Vx__Vy"
  | .sneReg _ _ => "SNE_Vx__Vy"
  | .ldI _ => "LD_I__NNN"
  | .jpV0 _ => "JP_V0__NNN"
  | .rnd _ _ => "RND_Vx__NN"
  | .drw _ _ _ => "DRW_Vx__Vy__N"
  | .skp _ => "SKP_Vx"
  | .sknp _ => "SKNP_Vx"
  | .ldFromDT _ => "LD_Vx__DT"
  | .ldKey _ => "LD_Vx__K"
  | .ldDT _ => "LD_DT__Vx"
  | .ldST _ => "LD_ST__Vx"
  | .addI _ => "ADD_I__Vx"
  | .ldF _ => "LD_F__Vx"
  | .ldB _ => "LD_B__Vx"
  | .stRegs _ => "LD__I___Vx"
  | .ldRegs _ => "LD_Vx___I"

/-- The format of each instruction (R92, R96). -/
def Instr.format : Instr → Format
  | .cls | .ret => .fixed
  | .jp _ | .call _ | .ldI _ | .jpV0 _ => .nnn
  | .seImm _ _ | .sneImm _ _ | .ldImm _ _ | .addImm _ _ | .rnd _ _ => .xnn
  | .seReg _ _ | .sneReg _ _ | .ldReg _ _ | .or _ _ | .and _ _ | .xor _ _ | .addReg _ _ | .sub _ _ | .shr _ _ | .subn _ _
  | .shl _ _ => .xy
  | .drw _ _ _ => .xyn
  | .skp _ | .sknp _ | .ldFromDT _ | .ldKey _ | .ldDT _ | .ldST _ | .addI _ | .ldF _ | .ldB _ | .stRegs _ | .ldRegs _ => .x

/-- An instruction is well formed iff the opcode map has exactly one row of its mnemonic, and that row has its format. The operands need no
check: their types hold exactly the field values of R92 and R93, all of which are legal (R20), so no ill-formed operand can be written
down; what can be ill formed is a WORD, and `Word.recognised` is that check. -/
def Instr.wellFormed (i : Instr) : Bool :=
  (opcodeTable.filter (·.mnemonic == i.mnemonic)).map (·.format) == [i.format]

end Sys2Proof
end

