-- ==== Sys2Proof/Decode.lean ====
section
/-! DEFINITION. The decoder (R98), total on words and on bytes, rejecting by name; after it the encoder, written from the formats of R92 and
the opcode map of R96. -/

namespace Sys2Proof

/-- Why bytes are no instruction. -/
inductive DecodeError where
  /-- The word matches no row of the opcode map (R94): the Step that fetched it reports UnknownOpcode. -/
  | unrecognised (op : Word)
  /-- Fewer than the two bytes of an instruction (R90). Never raised by a fetch, which reads two. -/
  | truncated
  deriving DecidableEq, Repr

/-- `v[hi:lo]` (R8): bits hi down to lo, as an unsigned number. -/
def bits (op : Word) (hi lo : Nat) : Nat := op.toNat / 2 ^ lo % 2 ^ (hi - lo + 1)

/-- X = op[11:8] (R9). -/
def fieldX (op : Word) : Reg := ⟨bits op 11 8, Nat.mod_lt _ (by decide)⟩

/-- Y = op[7:4] (R9). -/
def fieldY (op : Word) : Reg := ⟨bits op 7 4, Nat.mod_lt _ (by decide)⟩

/-- N = op[3:0] (R9). -/
def fieldN (op : Word) : Rows := ⟨bits op 3 0, Nat.mod_lt _ (by decide)⟩

/-- NN = op[7:0] (R9). -/
def fieldNN (op : Word) : Byte := BitVec.ofNat 8 (bits op 7 0)

/-- NNN = op[11:0] (R9). -/
def fieldNNN (op : Word) : Addr := BitVec.ofNat 12 (bits op 11 0)

/-- Family 0x8: sub-dispatch on the low nibble (R91, R97(a)). -/
def decodeAlu (op : Word) : Except DecodeError Instr :=
  match bits op 3 0 with
  | 0x0 => .ok (.ldReg (fieldX op) (fieldY op))
  | 0x1 => .ok (.or (fieldX op) (fieldY op))
  | 0x2 => .ok (.and (fieldX op) (fieldY op))
  | 0x3 => .ok (.xor (fieldX op) (fieldY op))
  | 0x4 => .ok (.addReg (fieldX op) (fieldY op))
  | 0x5 => .ok (.sub (fieldX op) (fieldY op))
  | 0x6 => .ok (.shr (fieldX op) (fieldY op))
  | 0x7 => .ok (.subn (fieldX op) (fieldY op))
  | 0xE => .ok (.shl (fieldX op) (fieldY op))
  | _ => .error (.unrecognised op)

/-- Family 0xF: sub-dispatch on the low byte (R91, R97(b)). -/
def decodeFx (op : Word) : Except DecodeError Instr :=
  match bits op 7 0 with
  | 0x07 => .ok (.ldFromDT (fieldX op))
  | 0x0A => .ok (.ldKey (fieldX op))
  | 0x15 => .ok (.ldDT (fieldX op))
  | 0x18 => .ok (.ldST (fieldX op))
  | 0x1E => .ok (.addI (fieldX op))
  | 0x29 => .ok (.ldF (fieldX op))
  | 0x33 => .ok (.ldB (fieldX op))
  | 0x55 => .ok (.stRegs (fieldX op))
  | 0x65 => .ok (.ldRegs (fieldX op))
  | _ => .error (.unrecognised op)

/-- The decode function of R98: dispatch on the high nibble (R91), every fixed bit checked (R95). -/
def decodeWord (op : Word) : Except DecodeError Instr :=
  match bits op 15 12 with
  | 0x0 => if op = 0x00E0 then .ok .cls else if op = 0x00EE then .ok .ret else .error (.unrecognised op)
  | 0x1 => .ok (.jp (fieldNNN op))
  | 0x2 => .ok (.call (fieldNNN op))
  | 0x3 => .ok (.seImm (fieldX op) (fieldNN op))
  | 0x4 => .ok (.sneImm (fieldX op) (fieldNN op))
  | 0x5 => if bits op 3 0 = 0 then .ok (.seReg (fieldX op) (fieldY op)) else .error (.unrecognised op)
  | 0x6 => .ok (.ldImm (fieldX op) (fieldNN op))
  | 0x7 => .ok (.addImm (fieldX op) (fieldNN op))
  | 0x8 => decodeAlu op
  | 0x9 => if bits op 3 0 = 0 then .ok (.sneReg (fieldX op) (fieldY op)) else .error (.unrecognised op)
  | 0xA => .ok (.ldI (fieldNNN op))
  | 0xB => .ok (.jpV0 (fieldNNN op))
  | 0xC => .ok (.rnd (fieldX op) (fieldNN op))
  | 0xD => .ok (.drw (fieldX op) (fieldY op) (fieldN op))
  | 0xE =>
    if bits op 7 0 = 0x9E then .ok (.skp (fieldX op))
    else if bits op 7 0 = 0xA1 then .ok (.sknp (fieldX op))
    else .error (.unrecognised op)
  | 0xF => decodeFx op
  | _ => .error (.unrecognised op)

/-- Two bytes as a word, the first the high byte (R61). -/
def wordOfBytes (hi lo : Byte) : Word := BitVec.ofNat 16 (hi.toNat * 256 + lo.toNat)

/-- The high byte of a word, which stands at the lower address (R61). -/
def highByte (op : Word) : Byte := BitVec.ofNat 8 (bits op 15 8)

/-- The low byte of a word. -/
def lowByte (op : Word) : Byte := BitVec.ofNat 8 (bits op 7 0)

/-- The decoder on bytes in memory order: the instruction and the bytes after it. -/
def decode : List Byte → Except DecodeError (Instr × List Byte)
  | hi :: lo :: rest =>
    match decodeWord (wordOfBytes hi lo) with
    | .ok i => .ok (i, rest)
    | .error e => .error e
  | _ => .error .truncated

/-- The instruction the decoder reads from the word `w` of `nbits` bits (the bits above are 0), laid out high byte first. -/
def decodeTableWord (nbits w : Nat) : Option Instr :=
  match decode [highByte (BitVec.ofNat 16 (w % 2 ^ nbits)), lowByte (BitVec.ofNat 16 (w % 2 ^ nbits))] with
  | .ok (i, _) => some i
  | .error _ => none

/-- Format NNN (R92): opcode, address. -/
def wordNNN (op : Nat) (nnn : Addr) : Word := BitVec.ofNat 16 (op * 4096 + nnn.toNat)

/-- Format XNN (R92): opcode, register, immediate. -/
def wordXNN (op : Nat) (x : Reg) (nn : Byte) : Word := BitVec.ofNat 16 (op * 4096 + x.val * 256 + nn.toNat)

/-- Formats XY and XYN (R92): opcode, two registers, a low nibble (the function or N). -/
def wordXYN (op : Nat) (x y : Reg) (n : Nat) : Word := BitVec.ofNat 16 (op * 4096 + x.val * 256 + y.val * 16 + n)

/-- Format X (R92): opcode, register, low byte (the function). -/
def wordX (op : Nat) (x : Reg) (f : Nat) : Word := BitVec.ofNat 16 (op * 4096 + x.val * 256 + f)

/-- The word of an instruction (R92, R96). -/
def encode : Instr → Word
  | .cls => 0x00E0
  | .ret => 0x00EE
  | .jp nnn => wordNNN 0x1 nnn
  | .call nnn => wordNNN 0x2 nnn
  | .seImm x nn => wordXNN 0x3 x nn
  | .sneImm x nn => wordXNN 0x4 x nn
  | .seReg x y => wordXYN 0x5 x y 0
  | .ldImm x nn => wordXNN 0x6 x nn
  | .addImm x nn => wordXNN 0x7 x nn
  | .ldReg x y => wordXYN 0x8 x y 0x0
  | .or x y => wordXYN 0x8 x y 0x1
  | .and x y => wordXYN 0x8 x y 0x2
  | .xor x y => wordXYN 0x8 x y 0x3
  | .addReg x y => wordXYN 0x8 x y 0x4
  | .sub x y => wordXYN 0x8 x y 0x5
  | .shr x y => wordXYN 0x8 x y 0x6
  | .subn x y => wordXYN 0x8 x y 0x7
  | .shl x y => wordXYN 0x8 x y 0xE
  | .sneReg x y => wordXYN 0x9 x y 0
  | .ldI nnn => wordNNN 0xA nnn
  | .jpV0 nnn => wordNNN 0xB nnn
  | .rnd x nn => wordXNN 0xC x nn
  | .drw x y n => wordXYN 0xD x y n.val
  | .skp x => wordX 0xE x 0x9E
  | .sknp x => wordX 0xE x 0xA1
  | .ldFromDT x => wordX 0xF x 0x07
  | .ldKey x => wordX 0xF x 0x0A
  | .ldDT x => wordX 0xF x 0x15
  | .ldST x => wordX 0xF x 0x18
  | .addI x => wordX 0xF x 0x1E
  | .ldF x => wordX 0xF x 0x29
  | .ldB x => wordX 0xF x 0x33
  | .stRegs x => wordX 0xF x 0x55
  | .ldRegs x => wordX 0xF x 0x65

/-- The two bytes of an instruction in memory order (R61, R90). -/
def encodeBytes (i : Instr) : List Byte := [highByte (encode i), lowByte (encode i)]

end Sys2Proof
end

