-- ==== Sys2Proof/Machine/Flags.lean ====
section
/-! DEFINITION. Every flag computation of R28: what the flag-writing instructions put into VF, from the operand values held before the
instruction, and the 8-bit results that go with them (R166 to R170, R171). -/

namespace Sys2Proof.Machine

/-- VF (R21): the register that holds the flag. -/
def vf : Reg := 15

/-- A flag as the byte VF receives: exactly 0x00 or 0x01, all eight bits written (R28). -/
def flagByte (f : Bool) : Byte := if f then 1 else 0

/-- Carry of 8XY4: the exact sum exceeds 255 (R166). -/
def carryFlag (a b : Byte) : Bool := 255 < a.toNat + b.toNat

/-- No borrow of `a - b` (R167, and with the operands exchanged R169). -/
def noBorrowFlag (a b : Byte) : Bool := b.toNat ≤ a.toNat

/-- The bit 8XY6 shifts out: bit 0 before the shift (R168). -/
def shiftedOutRight (s : Byte) : Bool := s.getLsbD 0

/-- The bit 8XYE shifts out: bit 7 before the shift (R170). -/
def shiftedOutLeft (s : Byte) : Bool := s.getLsbD 7

/-- `(a + b) mod 256` (R171). -/
def sumByte (a b : Byte) : Byte := BitVec.ofNat 8 (a.toNat + b.toNat)

/-- `(a - b) mod 256`, that is `a - b + 256` when `a < b` (R171). -/
def diffByte (a b : Byte) : Byte := BitVec.ofNat 8 (a.toNat + 256 - b.toNat)

/-- `s div 2`: logical shift right by one (R168). -/
def halfByte (s : Byte) : Byte := BitVec.ofNat 8 (s.toNat / 2)

/-- `(s * 2) mod 256`: shift left by one (R170). -/
def doubleByte (s : Byte) : Byte := BitVec.ofNat 8 (s.toNat * 2)

end Sys2Proof.Machine
end

