-- ==== Sys2Proof/Config.lean ====
section
/-! DEFINITION. What is fixed for the machine: the sizes of R5, the parameters the model takes as arguments (R6) with the values of the
spec's test vectors, and the one free value, the byte drawn by CXNN (R41). -/

namespace Sys2Proof.Config

/-- `MEM_SIZE` (R5): addresses 0x000 to 0xFFF. -/
abbrev memSize : Nat := 0x1000

/-- `PROG_BASE` (R5): where the program is loaded and `pc` starts. -/
abbrev progBase : Nat := 0x200

/-- `PROG_MAX` (R5): 3584 bytes. -/
abbrev progMax : Nat := 0xE00

/-- `FONT_BASE` (R5). -/
abbrev fontBase : Nat := 0x050

/-- `SCREEN_W` (R5). -/
abbrev screenW : Nat := 64

/-- `SCREEN_H` (R5). -/
abbrev screenH : Nat := 32

/-- `STACK_DEPTH` (R5). -/
abbrev stackDepth : Nat := 16

end Sys2Proof.Config

namespace Sys2Proof

/-- `SHIFT_SOURCE` (R6, D11, OPEN): which register 8XY6 and 8XYE shift. -/
inductive ShiftSource where
  | vx
  | vy
  deriving DecidableEq, Repr

/-- The parameters of R6 that the model takes as an argument. They stand in State, so that a statement about every state holds for every
value of them. Nothing changes them. -/
structure Config where
  /-- `SHIFT_SOURCE` (D11, OPEN). -/
  shiftSource : ShiftSource
  /-- `COLLISION_FLAG` (D12, OPEN): whether DXYN writes VF. -/
  collisionFlag : Bool
  /-- `GLYPH_STRIDE` (D15): the multiplier of FX29. -/
  glyphStride : Nat
  /-- `FONT` (D14): the 80 bytes at 0x050 to 0x09F after reset. -/
  font : Vector Byte 80
  deriving DecidableEq, Repr

namespace Config

/-- Glyphs 0 to 7 of the table of R33. PRESUMED: the spec takes the bytes from general knowledge (log 6). -/
def fontLow : List Byte :=
  [0xF0, 0x90, 0x90, 0x90, 0xF0] ++ [0x20, 0x60, 0x20, 0x20, 0x70] ++ [0xF0, 0x10, 0xF0, 0x80, 0xF0] ++ [0xF0, 0x10, 0xF0, 0x10, 0xF0] ++
  [0x90, 0x90, 0xF0, 0x10, 0x10] ++ [0xF0, 0x80, 0xF0, 0x10, 0xF0] ++ [0xF0, 0x80, 0xF0, 0x90, 0xF0] ++ [0xF0, 0x10, 0x20, 0x40, 0x40]

/-- Glyphs 8 to F of the table of R33. PRESUMED (log 6). -/
def fontHigh : List Byte :=
  [0xF0, 0x90, 0xF0, 0x90, 0xF0] ++ [0xF0, 0x90, 0xF0, 0x10, 0xF0] ++ [0xF0, 0x90, 0xF0, 0x90, 0x90] ++ [0xE0, 0x90, 0xE0, 0x90, 0xE0] ++
  [0xF0, 0x80, 0x80, 0x80, 0xF0] ++ [0xE0, 0x90, 0x90, 0x90, 0xE0] ++ [0xF0, 0x80, 0xF0, 0x80, 0xF0] ++ [0xF0, 0x80, 0xF0, 0x80, 0x80]

/-- The default of the parameter `FONT`: the whole table of R33. -/
def conventionalFont : List Byte := fontLow ++ fontHigh

/-- The values of R6's third column, which the spec's test vectors use. DESIGN CHOICE for the two OPEN parameters (log 4, log 5). -/
def specVectors : Config where
  shiftSource := .vx
  collisionFlag := true
  glyphStride := 5
  font := ⟨conventionalFont.toArray, rfl⟩

/-- `randomByte()` (R41, R182): the free draw of the n-th CXNN whose draw the host did not fix. No generator, seed or distribution is
known of it (D13), so it has no body. -/
opaque randomByte : Nat → Byte

end Config
end Sys2Proof
end

