-- ==== Sys2Proof/Machine/State.lean ====
section
/-! DEFINITION. The machine's state, as plain data: every piece of state of `10_state.md`, and after it the model's own fields (the
parameters, the host's pending operations, the draw, the report). Its value after reset (R280). -/

namespace Sys2Proof.Machine

/-- The four error kinds of R250, with the info each records: `a` is the address of the instruction.
Every one is a REPORTED, NON-FATAL outcome after which the core goes on (R251), so each stands in a next state's `report`;
no step of this model ends in `Host.Outcome.fault` (log 8, safe). -/
inductive Fault where
  /-- Raised by decode on a word of no row of the opcode map (R252): `pc = a + 2`, nothing else changed. Safe: it is visible in `report`. -/
  | unknownOpcode (a : Word) (op : Word)
  /-- Raised by 2NNN with 16 entries on the stack (R253): fully rejected. Safe: visible in `report`. -/
  | stackOverflow (a : Word)
  /-- Raised by 00EE with no entry on the stack (R254): fully rejected. Safe: visible in `report`. -/
  | stackUnderflow (a : Word)
  /-- Raised by the fetch, DXYN, FX33, FX55, FX65 when an address above 0xFFF would be accessed, with the first such address (R255):
  fully rejected. Safe: visible in `report`. -/
  | memoryOutOfRange (a : Word) (addr : Nat)
  deriving DecidableEq, Repr

/-- Why the machine gives an operation no meaning. -/
inductive Refusal where
  /-- Raised by `exec` on an instruction without a meaning; no instruction of this model is one. Safe. -/
  | notModelled (mnemonic : String)
  /-- Raised by the host operation `LoadProgram` when it does not follow a `Reset` directly: the spec gives it no meaning (R234, D31).
  Safe: the model stops where the hardware is not described. -/
  | loadNotAfterReset
  deriving DecidableEq, Repr

/-- What a `Step` reports (R123), and what a refused `LoadProgram` reports (R234). -/
inductive Report where
  /-- An instruction was executed completely. -/
  | ok
  /-- The core was awaiting a key; nothing was fetched (R126). -/
  | idle
  /-- `Err(kind, info)` (R250). -/
  | err (f : Fault)
  /-- `LoadProgram` of more than 3584 bytes was refused, no byte written (R234). -/
  | loadRefused
  deriving DecidableEq, Repr

/-- The operations the host issues (R121). -/
inductive HostOp where
  /-- `Reset` (R280, R281). -/
  | reset
  /-- `LoadProgram(bytes)` (R234). -/
  | loadProgram (bytes : List Byte)
  /-- `SetKeys(new)` (R231). -/
  | setKeys (new : Vector Bool 16)
  /-- `Step(rnd)` (R124). -/
  | step (rnd : Byte)
  /-- `Tick` (R230). -/
  | tick
  /-- `AckDraw` (R233). -/
  | ackDraw
  deriving DecidableEq, Repr

/-- Memory as (address, byte) pairs in canonical form: addresses strictly rising, no entry equal to what an unlisted address reads as. -/
abbrev Memory := List Host.Cell

/-- The pixel grid: 32 rows of 64 cells, so `pixels[x][y]` of the spec is row y, column x (R38). -/
abbrev Screen := Vector (Vector Bool 64) 32

/-- The state of the machine. -/
structure State where
  /-- V[0]..V[15] (R20). -/
  v : Vector Byte 16
  /-- The program counter (R24). -/
  pc : Word
  /-- The address register (R29). -/
  i : Word
  /-- The return stack (R30). -/
  stack : Vector Word 16
  /-- The number of valid stack entries, 0..16 (R30, R34). -/
  stackIndex : Fin 17
  /-- The delay timer (R32). -/
  delayTimer : Byte
  /-- The sound timer (R32). -/
  soundTimer : Byte
  /-- The 4096 bytes of memory (R37, R60). -/
  memory : Memory
  /-- The pixel grid (R38). -/
  pixels : Screen
  /-- The most recent keypad sample (R39), which is also the previous one for edge detection (R40). -/
  keys : Vector Bool 16
  /-- True in the state AwaitingKey (R35). -/
  awaitingKey : Bool
  /-- The register a key wait will write; keeps its last value (R35). -/
  awaitTargetRegister : Reg
  /-- The draw signal (R36). -/
  drawPending : Bool
  /-- MODEL'S OWN: the parameters of R6. Nothing changes them. -/
  config : Config
  /-- MODEL'S OWN: the host operations not yet performed, the next one first (R121). With none the host issues a `Step` with a free draw. -/
  inputs : List HostOp
  /-- MODEL'S OWN: the draw given with the `Step` being performed (R41); none when it is free. -/
  rnd : Option Byte
  /-- MODEL'S OWN: how many draws CXNN has taken; the argument of the free draw. -/
  drawCount : Nat
  /-- MODEL'S OWN: true from a `Reset` until the next operation is performed; what "no `Step`, `Tick` or `SetKeys` since" (R234) means in plain
  data. Only `LoadProgram` reads it. -/
  justReset : Bool
  /-- MODEL'S OWN: the outcome the last `Step` reported (R123). An output: no operation reads it. -/
  report : Report
  deriving DecidableEq, Repr

/-- The machine right after `Reset` (R280): "zero-initialized except font bytes", `pc` at 0x0200. Memory lists nothing, for an unlisted
address reads as its reset contents. The last six fields are the model's own (log 1, log 3, log 4, log 5, log 6, log 9, log 11). -/
def State.reset : State where
  v := Vector.replicate 16 0
  pc := 0x0200
  i := 0
  stack := Vector.replicate 16 0
  stackIndex := 0
  delayTimer := 0
  soundTimer := 0
  memory := []
  pixels := Vector.replicate 32 (Vector.replicate 64 false)
  keys := Vector.replicate 16 false
  awaitingKey := false
  awaitTargetRegister := 0
  drawPending := false
  config := Config.specVectors
  inputs := []
  rnd := none
  drawCount := 0
  justReset := true
  report := .ok

end Sys2Proof.Machine
end

