-- ==== Sys2Proof/Machine/Operands.lean ====
section
/-! DEFINITION. Every operand form of the instruction set: a register (R20), the value shifted (R168), the key a register names (R202), the
decimal digits of a byte (R216), the bytes of registers V0..VX (R217), the address of the instruction (R124), the draw of CXNN (R182). -/

namespace Sys2Proof.Machine

/-- `V[k]` (R8, R20). -/
def State.reg (s : State) (k : Reg) : Byte := s.v[k]

/-- The value 8XY6 and 8XYE shift, by the parameter SHIFT_SOURCE (R168, R170). -/
def State.shiftOperand (s : State) (x y : Reg) : Byte :=
  match s.config.shiftSource with
  | .vx => s.reg x
  | .vy => s.reg y

/-- The low four bits of a byte as a key number (R202). -/
def keyIndex (b : Byte) : Fin 16 := ⟨b.toNat % 16, Nat.mod_lt _ (by decide)⟩

/-- Whether the key that `V[x]` names is pressed in the most recent sample (R200, R202). -/
def State.keyPressed (s : State) (x : Reg) : Bool := s.keys[keyIndex (s.reg x)]

/-- Hundreds, tens and ones of a byte, one digit a byte, in the order they are stored (R216). -/
def decimalDigits (b : Byte) : List Byte :=
  [BitVec.ofNat 8 (b.toNat / 100), BitVec.ofNat 8 (b.toNat / 10 % 10), BitVec.ofNat 8 (b.toNat % 10)]

/-- V0..VX in order (R217). -/
def State.regsUpTo (s : State) (x : Reg) : List Byte := s.v.toList.take (x.val + 1)

/-- `a`, the address the executing instruction was fetched from: an instruction sees `pc = a + 2` (R124, R25). DEDUCED (log 10). -/
def State.instrAddr (s : State) : Word := s.pc - 2

/-- The glyph address of FX29 (R215), reduced to the 16 bits of `i`. -/
def State.glyphAddress (s : State) (b : Byte) : Word := BitVec.ofNat 16 (Config.fontBase + s.config.glyphStride * b.toNat)

/-- The draw of the `Step` being performed (R41, R182): the host's where it gave one, else the free value. -/
def State.draw (s : State) : Byte :=
  match s.rnd with
  | some b => b
  | none => Config.randomByte s.drawCount

end Sys2Proof.Machine
end

