-- ==== Sys2Proof/Machine/Ops.lean ====
section
/-! DEFINITION. The named operations over registers, memory, stack and pixels, and the raising of an error, which is this machine's only
exception (R250 to R255). The meanings of the instructions are written over them. -/

namespace Sys2Proof.Machine

/-- What a step or an instruction answers. -/
abbrev Result := Host.Outcome State Fault Refusal

/-! Writes to one part of the state. -/

/-- `V[k] <- b` (R8). -/
def State.setReg (s : State) (k : Reg) (b : Byte) : State := { s with v := s.v.set k b }

/-- The whole register file (FX65). -/
def State.setRegs (s : State) (v : Vector Byte 16) : State := { s with v := v }

/-- `pc <- t` (R8). -/
def State.setPc (s : State) (t : Word) : State := { s with pc := t }

/-- `i <- a` (R8). -/
def State.setI (s : State) (a : Word) : State := { s with i := a }

/-- The return stack and its depth. -/
def State.setStack (s : State) (st : Vector Word 16) (n : Fin 17) : State := { s with stack := st, stackIndex := n }

/-- `delay_timer <- b`. -/
def State.setDelay (s : State) (b : Byte) : State := { s with delayTimer := b }

/-- `sound_timer <- b`. -/
def State.setSound (s : State) (b : Byte) : State := { s with soundTimer := b }

/-- The memory. -/
def State.setMemory (s : State) (m : Memory) : State := { s with memory := m }

/-- The pixel grid. Every instruction that writes it also raises the draw signal (R36). -/
def State.setPixels (s : State) (p : Screen) : State := { s with pixels := p, drawPending := true }

/-- `draw_pending <- b`. -/
def State.setDrawPending (s : State) (b : Bool) : State := { s with drawPending := b }

/-- `keys <- new`. -/
def State.setKeySample (s : State) (new : Vector Bool 16) : State := { s with keys := new }

/-- Enter AwaitingKey(x) (R35). -/
def State.awaitKey (s : State) (x : Reg) : State := { s with awaitingKey := true, awaitTargetRegister := x }

/-- Leave AwaitingKey; the target register keeps its last value (R35). -/
def State.resume (s : State) : State := { s with awaitingKey := false }

/-- The report of the last `Step` (R123). -/
def State.setReport (s : State) (r : Report) : State := { s with report := r }

/-- The pending host operations. -/
def State.setInputs (s : State) (ops : List HostOp) : State := { s with inputs := ops }

/-- The draw given with the `Step` being performed. -/
def State.setRnd (s : State) (r : Option Byte) : State := { s with rnd := r }

/-- An operation other than `Reset` is performed: a later `LoadProgram` no longer follows `Reset` directly (R234). -/
def State.leaveReset (s : State) : State := { s with justReset := false }

/-- One more draw taken. -/
def State.countDraw (s : State) : State := { s with drawCount := s.drawCount + 1 }

/-! Registers. -/

/-- The result to `V[x]` first, the flag to VF last, so that the flag remains when x is F (R21, R127). -/
def State.setRegFlag (s : State) (x : Reg) (b : Byte) (f : Bool) : State := (s.setReg x b).setReg vf (flagByte f)

/-- Bytes into consecutive registers from number k on (R218). -/
def writeRegs (v : Vector Byte 16) (k : Nat) : List Byte → Vector Byte 16
  | [] => v
  | b :: bs => writeRegs (v.setIfInBounds k b) (k + 1) bs

/-! Errors. -/

/-- The numeric code of each error kind (R250, D20). -/
def Fault.code : Fault → Nat
  | .unknownOpcode _ _ => 1
  | .stackOverflow _ => 2
  | .stackUnderflow _ => 3
  | .memoryOutOfRange _ _ => 4

/-- The numeric code of a `Step`'s outcome: 0 for `Ok` and `Idle`, else its error kind's (R250). A refused `LoadProgram` is no outcome of a `Step`
and has none. -/
def Report.code : Report → Option Nat
  | .ok => some 0
  | .idle => some 0
  | .err f => some f.code
  | .loadRefused => none

/-- TAKING AN ERROR, the machine's only exception (R124, R253 to R255): every change of this `Step` is undone, `pc <- a` included, and the
kind and info are reported. There is no handler, vector, saved register or mode (R259) and so no return from it (R260). Every check
precedes every change of its instruction (R64), so the pre-advance of `pc` is all there is to undo. -/
def raise (f : Fault) (s : State) : Result := .next ((s.setPc s.instrAddr).setReport (.err f))

/-- Continue with `k` unless an error is due. -/
def guardError (f : Option Fault) (s : State) (k : Result) : Result :=
  match f with
  | some f => raise f s
  | none => k

/-! Memory. -/

/-- What an address not listed reads as: its contents after reset, the default font at 0x050..0x09F and zero elsewhere (R37, R66). -/
def Memory.unlisted (a : Nat) : Byte :=
  if Config.fontBase ≤ a ∧ a < Config.fontBase + 80 then Config.conventionalFont.getD (a - Config.fontBase) 0 else 0

/-- `MemRead(a, 1)` for an address in range (R8): one byte. -/
def Memory.read : Memory → Nat → Byte
  | [], a => Memory.unlisted a
  | (a', b) :: m, a => if a' = a then b else Memory.read m a

/-- Puts (a, b) in front of cells at higher addresses, or nothing where b is what a reads as unlisted. -/
def Memory.putCell (a : Nat) (b : Byte) (m : Memory) : Memory := if b = Memory.unlisted a then m else (a, b) :: m

/-- Writes one byte, keeping the canonical form. -/
def Memory.insert : Memory → Nat → Byte → Memory
  | [], a, b => Memory.putCell a b []
  | (a', b') :: m, a, b =>
    if a < a' then Memory.putCell a b ((a', b') :: m)
    else if a = a' then Memory.putCell a b m
    else (a', b') :: Memory.insert m a b

/-- `MemWrite(a, 1, b)` (R8): one byte. An address above 0xFFF is never accessed (R63); the instructions raise MemoryOutOfRange before. -/
def Memory.write (m : Memory) (a : Nat) (b : Byte) : Memory := if a < Config.memSize then m.insert a b else m

/-- Bytes to consecutive addresses from a up (R216, R217, R234). -/
def Memory.writeBytes (m : Memory) (a : Nat) : List Byte → Memory
  | [] => m
  | b :: bs => Memory.writeBytes (m.write a b) (a + 1) bs

/-- n bytes from consecutive addresses from a up (R190, R218). -/
def Memory.readBytes (m : Memory) (a : Nat) : Nat → List Byte
  | 0 => []
  | n + 1 => m.read a :: Memory.readBytes m (a + 1) n

/-- Addresses strictly rising from `lo` on. -/
def Memory.rising (lo : Nat) : Memory → Bool
  | [] => true
  | (a, _) :: m => lo ≤ a && Memory.rising (a + 1) m

/-- The canonical form: addresses strictly rising, all inside the 4096 bytes (R43(f)), no cell equal to what it reads as unlisted. -/
def Memory.wf (m : Memory) : Bool := m.rising 0 && m.all fun c => c.1 < Config.memSize && c.2 != Memory.unlisted c.1

/-- The contents after `Reset` with the parameter FONT (R280). With the default font it lists nothing. -/
def Memory.afterReset (font : Vector Byte 80) : Memory := Memory.writeBytes [] Config.fontBase font.toList

/-- The range check of DXYN, FX33, FX55, FX65 (R64, R191): the n bytes at `i`, `i + 1`, ... as natural numbers, never wrapped (R63). Where one
lies above 0xFFF, the error with the first such address; no byte accessed, no error. -/
def State.rangeError (s : State) (n : Nat) : Option Fault :=
  if n = 0 ∨ s.i.toNat + n ≤ Config.memSize then none
  else some (.memoryOutOfRange s.instrAddr (max s.i.toNat Config.memSize))

/-! Control flow. -/

/-- A skip: a further 2 on top of the pre-advance if the condition holds (R25, R150). -/
def State.skipIf (s : State) (c : Bool) : State := if c then s.setPc (s.pc + 2) else s

/-- `push` (R30): none when the stack is full. -/
def State.push (s : State) (w : Word) : Option State :=
  if h : s.stackIndex.val < 16 then some (s.setStack (s.stack.set s.stackIndex.val w h) ⟨s.stackIndex.val + 1, by omega⟩) else none

/-- `pop` (R31): none when the stack is empty. The popped entry keeps its contents. -/
def State.pop (s : State) : Option (Word × State) :=
  if h : 0 < s.stackIndex.val then
    some (s.stack[s.stackIndex.val - 1]'(by omega), s.setStack s.stack ⟨s.stackIndex.val - 1, by omega⟩)
  else none

/-! Pixels. -/

/-- `pixels[x][y]` (R8); a cell outside the grid is off. -/
def Screen.get (p : Screen) (x y : Nat) : Bool := if h : x < 64 ∧ y < 32 then (p[y]'h.2)[x]'h.1 else false

/-- `pixels[x][y] <- pixels[x][y] ^ 1`; a cell outside the grid is dropped, not wrapped (R193). -/
def Screen.toggle (p : Screen) (x y : Nat) : Screen :=
  if h : x < 64 ∧ y < 32 then p.set y ((p[y]'h.2).set x (!(p[y]'h.2)[x]'h.1) h.1) h.2 else p

/-- All pixels off (R140). -/
def Screen.blank : Screen := Vector.replicate 32 (Vector.replicate 64 false)

/-- One bit of a sprite row at column c, bit 7 leftmost (R190, R192): a set bit meets the pixel and toggles it. The Bool is `collided`. -/
def blitBit (b : Byte) (x0 y : Nat) (acc : Screen × Bool) (c : Nat) : Screen × Bool :=
  if b.getLsbD (7 - c) then (acc.1.toggle (x0 + c) y, acc.2 || acc.1.get (x0 + c) y) else acc

/-- One sprite row: columns 0 to 7 (R190). -/
def blitRow (b : Byte) (x0 y : Nat) (acc : Screen × Bool) : Screen × Bool := (List.range 8).foldl (blitBit b x0 y) acc

/-- The sprite's rows downwards (R190). -/
def blitRows (x0 : Nat) : Nat → List Byte → Screen × Bool → Screen × Bool
  | _, [], acc => acc
  | y, b :: bs, acc => blitRows x0 (y + 1) bs (blitRow b x0 y acc)

/-! The fetch. -/

/-- The word at `pc`, high byte first (R61). -/
def State.fetchWord (s : State) : Word := wordOfBytes (s.memory.read s.pc.toNat) (s.memory.read (s.pc.toNat + 1))

/-- What the instruction sees: `pc` pre-advanced by 2 (R124), the report Ok unless it raises an error. -/
def State.advanced (s : State) : State := (s.setPc (s.pc + 2)).setReport .ok

/-- An error of the `Step` itself, before any instruction runs (R125): nothing changes but the report. -/
def State.failFetch (s : State) : State :=
  s.setReport (.err (.memoryOutOfRange s.pc (max s.pc.toNat Config.memSize)))

/-- UnknownOpcode (R252): `pc = a + 2`, nothing else changed, and the report. -/
def State.failDecode (s : State) (op : Word) : State :=
  (s.setPc (s.pc + 2)).setReport (.err (.unknownOpcode s.pc op))

end Sys2Proof.Machine
end

