-- ==== Sys2Proof/Machine/Alu.lean ====
section
/-! DEFINITION. Families 0x6, 0x7, 0x8: load immediate, add immediate, register ALU (R160 to R172). The operands are read before any write
(R127); the five flag-writing instructions write VF last (R21). -/

namespace Sys2Proof.Machine

/-- 6XNN (R160). -/
def execLdImm (x : Reg) (nn : Byte) (s : State) : Result := .next (s.setReg x nn)

/-- 7XNN (R161): no flag effect. -/
def execAddImm (x : Reg) (nn : Byte) (s : State) : Result := .next (s.setReg x (sumByte (s.reg x) nn))

/-- 8XY0 (R162): VF not written as a flag (R172). -/
def execLdReg (x y : Reg) (s : State) : Result := .next (s.setReg x (s.reg y))

/-- 8XY1 (R163, R172). -/
def execOr (x y : Reg) (s : State) : Result := .next (s.setReg x (s.reg x ||| s.reg y))

/-- 8XY2 (R164, R172). -/
def execAnd (x y : Reg) (s : State) : Result := .next (s.setReg x (s.reg x &&& s.reg y))

/-- 8XY3 (R165, R172). -/
def execXor (x y : Reg) (s : State) : Result := .next (s.setReg x (s.reg x ^^^ s.reg y))

/-- 8XY4 (R166): VF = carry out. -/
def execAddReg (x y : Reg) (s : State) : Result :=
  .next (s.setRegFlag x (sumByte (s.reg x) (s.reg y)) (carryFlag (s.reg x) (s.reg y)))

/-- 8XY5 (R167): VF = no borrow of `V[x] - V[y]`. -/
def execSub (x y : Reg) (s : State) : Result :=
  .next (s.setRegFlag x (diffByte (s.reg x) (s.reg y)) (noBorrowFlag (s.reg x) (s.reg y)))

/-- 8XY6 (R168): the value shifted is SHIFT_SOURCE's; VF = its bit 0. -/
def execShr (x y : Reg) (s : State) : Result :=
  .next (s.setRegFlag x (halfByte (s.shiftOperand x y)) (shiftedOutRight (s.shiftOperand x y)))

/-- 8XY7 (R169): VF = no borrow of `V[y] - V[x]`. -/
def execSubn (x y : Reg) (s : State) : Result :=
  .next (s.setRegFlag x (diffByte (s.reg y) (s.reg x)) (noBorrowFlag (s.reg y) (s.reg x)))

/-- 8XYE (R170): the value shifted is SHIFT_SOURCE's; VF = its bit 7. -/
def execShl (x y : Reg) (s : State) : Result :=
  .next (s.setRegFlag x (doubleByte (s.shiftOperand x y)) (shiftedOutLeft (s.shiftOperand x y)))

end Sys2Proof.Machine
end

