-- ==== Sys2Proof/Machine/Draw.lean ====
section
/-! DEFINITION. Family 0xD: the sprite XOR-blitter (R190 to R197). -/

namespace Sys2Proof.Machine

/-- What DXYN draws (R190): the N sprite rows at `i` from the start `(V[x] mod 64, V[y] mod 32)`, clipped, not wrapped (R193), and whether some
set bit met a lit pixel. -/
def State.blitted (s : State) (x y : Reg) (n : Rows) : Screen × Bool :=
  blitRows ((s.reg x).toNat % 64) ((s.reg y).toNat % 32) (s.memory.readBytes s.i.toNat n.val) (s.pixels, false)

/-- The collision flag to VF, by the parameter COLLISION_FLAG (R194). -/
def State.setCollision (s : State) (collided : Bool) : State :=
  if s.config.collisionFlag then s.setReg vf (flagByte collided) else s

/-- DXYN (R190): the range of all N rows is checked first (R191); the draw signal is set unconditionally (R195). -/
def execDrw (x y : Reg) (n : Rows) (s : State) : Result :=
  guardError (s.rangeError n.val) s
    (.next ((s.setPixels (s.blitted x y n).1).setCollision (s.blitted x y n).2))

end Sys2Proof.Machine
end

