-- ==== Sys2Proof/Machine/Flow.lean ====
section
/-! DEFINITION. Families 0x0, 0x1, 0x2: clear screen, return, jump, call (R140 to R143). On entry `pc = a + 2` (R124). -/

namespace Sys2Proof.Machine

/-- 00E0 (R140): all pixels off, the draw signal set, whether or not a pixel changed (C8). -/
def execCls (s : State) : Result := .next (s.setPixels Screen.blank)

/-- 00EE (R141): pop into `pc`; StackUnderflow on an empty stack (R254). -/
def execRet (s : State) : Result :=
  match s.pop with
  | some (w, t) => .next (t.setPc w)
  | none => raise (.stackUnderflow s.instrAddr) s

/-- 1NNN (R142). -/
def execJp (nnn : Addr) (s : State) : Result := .next (s.setPc nnn.zext16)

/-- 2NNN (R143): push the advanced `pc`, the address after the call; StackOverflow on a full stack (R253). -/
def execCall (nnn : Addr) (s : State) : Result :=
  match s.push s.pc with
  | some t => .next (t.setPc nnn.zext16)
  | none => raise (.stackOverflow s.instrAddr) s

end Sys2Proof.Machine
end

