-- ==== Sys2Proof/Machine/Fx.lean ====
section
/-! DEFINITION. Family 0xF: timers, key wait, index arithmetic, font, BCD, block copy (R210 to R219). -/

namespace Sys2Proof.Machine

/-- FX07 (R210). -/
def execLdFromDT (x : Reg) (s : State) : Result := .next (s.setReg x s.delayTimer)

/-- FX0A (R211): enter AwaitingKey(x); `pc` stays past the instruction. -/
def execLdKey (x : Reg) (s : State) : Result := .next (s.awaitKey x)

/-- FX15 (R212). -/
def execLdDT (x : Reg) (s : State) : Result := .next (s.setDelay (s.reg x))

/-- FX18 (R213). -/
def execLdST (x : Reg) (s : State) : Result := .next (s.setSound (s.reg x))

/-- FX1E (R214): wraps modulo 65536, no flag effect. -/
def execAddI (x : Reg) (s : State) : Result := .next (s.setI (s.i + (s.reg x).zext16))

/-- FX29 (R215): no mask on `V[x]`. -/
def execLdF (x : Reg) (s : State) : Result := .next (s.setI (s.glyphAddress (s.reg x)))

/-- FX33 (R216): three digits to `i`, `i + 1`, `i + 2`. -/
def execLdB (x : Reg) (s : State) : Result :=
  guardError (s.rangeError 3) s (.next (s.setMemory (s.memory.writeBytes s.i.toNat (decimalDigits (s.reg x)))))

/-- FX55 (R217): V0..VX to memory at `i`; `i` unchanged. -/
def execStRegs (x : Reg) (s : State) : Result :=
  guardError (s.rangeError (x.val + 1)) s (.next (s.setMemory (s.memory.writeBytes s.i.toNat (s.regsUpTo x))))

/-- FX65 (R218): V0..VX from memory at `i`; `i` unchanged. -/
def execLdRegs (x : Reg) (s : State) : Result :=
  guardError (s.rangeError (x.val + 1)) s (.next (s.setRegs (writeRegs s.v 0 (s.memory.readBytes s.i.toNat (x.val + 1)))))

end Sys2Proof.Machine
end

