-- ==== Sys2Proof/Machine/Index.lean ====
section
/-! DEFINITION. Families 0xA, 0xB, 0xC: load index, indexed jump, random (R180 to R182). -/

namespace Sys2Proof.Machine

/-- ANNN (R180). -/
def execLdI (nnn : Addr) (s : State) : Result := .next (s.setI nnn.zext16)

/-- BNNN (R181): the register is always V0; no 16-bit overflow is possible. -/
def execJpV0 (nnn : Addr) (s : State) : Result := .next (s.setPc ((s.reg 0).zext16 + nnn.zext16))

/-- CXNN (R182): `rnd & NN`, with the draw of this `Step` (R41). -/
def execRnd (x : Reg) (nn : Byte) (s : State) : Result := .next ((s.setReg x (s.draw &&& nn)).countDraw)

end Sys2Proof.Machine
end

