-- ==== Sys2Proof/Machine/Keys.lean ====
section
/-! DEFINITION. Family 0xE: the skips on the keypad, level-sensitive (R200 to R202). -/

namespace Sys2Proof.Machine

/-- EX9E (R200). -/
def execSkp (x : Reg) (s : State) : Result := .next (s.skipIf (s.keyPressed x))

/-- EXA1 (R201). -/
def execSknp (x : Reg) (s : State) : Result := .next (s.skipIf (!s.keyPressed x))

end Sys2Proof.Machine
end

