-- ==== Sys2Proof/Machine/HostOps.lean ====
section
/-! DEFINITION. The host's operations other than `Step`: `Tick` (R230), `SetKeys` (R231, R232), `AckDraw` (R233), `LoadProgram` (R234),
`Reset` (R280, R281). -/

namespace Sys2Proof.Machine

/-- A timer after one `Tick`: one less, and zero stays zero (R230). -/
def tickTimer (b : Byte) : Byte := if b = 0 then 0 else b - 1

/-- `Tick` (R230): the same in Running and AwaitingKey (R237). -/
def State.tick (s : State) : State := (s.setDelay (tickTimer s.delayTimer)).setSound (tickTimer s.soundTimer)

/-- The newly pressed keys, lowest first: pressed in the new sample and not in the previous one (R232). -/
def State.newlyPressed (s : State) (new : Vector Bool 16) : List (Fin 16) :=
  (List.finRange 16).filter fun k => new[k] && !s.keys[k]

/-- A key wait met by an edge (R232): the key's number to the target register, and Running again. -/
def State.resolveWait (s : State) (k : Fin 16) : State :=
  (s.setReg s.awaitTargetRegister (BitVec.ofNat 8 k.val)).resume

/-- `SetKeys(new)` (R231): the lowest newly pressed key resolves a wait (R232(c)); then the sample is stored. -/
def State.setKeys (s : State) (new : Vector Bool 16) : State :=
  match s.awaitingKey, s.newlyPressed new with
  | true, k :: _ => (s.resolveWait k).setKeySample new
  | _, _ => s.setKeySample new

/-- `AckDraw` (R233). -/
def State.ackDraw (s : State) : State := s.setDrawPending false

/-- The state `Reset` leaves (R280), from any state (R281): `justReset` included. The parameters, the pending operations, the draw counter and the last report are
no state of the spec's machine and stay. -/
def State.afterReset (s : State) : State :=
  { State.reset with
    config := s.config, memory := Memory.afterReset s.config.font, inputs := s.inputs, drawCount := s.drawCount, report := s.report }

/-- Whether the state is the one `Reset` left, with no operation performed since: that is what `justReset` says (R234). -/
def State.isAfterReset (s : State) : Bool := s = s.afterReset

/-- `LoadProgram(bytes)` (R234): only on the state `Reset` left, else without meaning (D31); more than 3584 bytes are refused, no byte
written, nothing changed; else the bytes from 0x200 up. -/
def State.loadProgram (s : State) (bytes : List Byte) : Result :=
  if !s.isAfterReset then .refused .loadNotAfterReset
  else if Config.progMax < bytes.length then .next (s.setReport .loadRefused)
  else .next (s.leaveReset.setMemory (s.memory.writeBytes Config.progBase bytes))

end Sys2Proof.Machine
end

