-- ==== Sys2Proof/Machine/Engine.lean ====
section
/-! DEFINITION. The Step cycle (R124 to R126, R258), and the performing of one host operation (R121). -/

namespace Sys2Proof.Machine

/-- The fetch-decode-execute cycle (R124), its checks in the order of R258: the key-wait gate (R126), the fetch bounds (R125), decode (R252),
then the instruction's own. -/
def engineStep (s : State) : Result :=
  if s.awaitingKey then .next (s.setReport .idle)
  else if 0x0FFE < s.pc.toNat then .next s.failFetch
  else
    match decodeWord s.fetchWord with
    | .ok i => exec i s.advanced
    | .error _ => .next (s.failDecode s.fetchWord)

/-- A `Result` with its next state changed. -/
def mapNext (f : State → State) : Result → Result
  | .next t => .next (f t)
  | .fault r => .fault r
  | .refused r => .refused r

/-- `Step(rnd)` with the host's draw (R121, R124): the draw is this `Step`'s alone, and discarded after it (R126). -/
def stepWithDraw (rnd : Byte) (s : State) : Result :=
  mapNext (State.setRnd · none) (engineStep (s.setRnd (some rnd)))

/-- One operation of the host (R121). Each but `Reset`, and a `LoadProgram` that is refused, ends the moment directly after `Reset` (R234). -/
def perform (op : HostOp) (s : State) : Result :=
  match op with
  | .reset => .next s.afterReset
  | .loadProgram bytes => s.loadProgram bytes
  | .setKeys new => .next (s.leaveReset.setKeys new)
  | .step rnd => stepWithDraw rnd s.leaveReset
  | .tick => .next s.leaveReset.tick
  | .ackDraw => .next s.leaveReset.ackDraw

/-- One step of the model: the next pending operation of the host; with none pending, a `Step` with a free draw (log 1). -/
def operate (s : State) : Result :=
  match s.inputs with
  | [] => engineStep s.leaveReset
  | op :: rest => perform op (s.setInputs rest)

/-- The operations of the reference order within one frame (R122): one legal schedule among all. `Step` and `AckDraw` are issued on the state
the operations before them left. -/
def referenceFrame (new : Vector Bool 16) (rnd : Byte) (s : State) : Result :=
  let s₁ := s.leaveReset.setKeys new
  mapNext (fun s₂ => if s₂.tick.drawPending then s₂.tick.ackDraw else s₂.tick)
    (if s₁.awaitingKey then .next s₁ else stepWithDraw rnd s₁)

end Sys2Proof.Machine
end

