-- ==== Sys2Proof/Machine/Step.lean ====
section
/-! DEFINITION. The machine's step, and the placing of one instruction where the next step fetches it. -/

namespace Sys2Proof.Machine

/-- One operation of the machine. -/
def step (s : State) : Host.Outcome State Fault Refusal := operate s

/-- Where the next `Step` can fetch: `pc`, or the entry point when `pc` lies beyond the last instruction slot (R125). -/
def State.fetchPlace (s : State) : Word := if s.pc.toNat ≤ 0x0FFE then s.pc else 0x0200

/-- `s` with the word `w` (of `nbits` bits, the bits above 0) stored where the next step fetches, high byte first (R61), so that the very
next step runs it: no host operation pending and no key wait. It stands for a load, so a `LoadProgram` after it is late. -/
def State.withFetchWord (s : State) (nbits w : Nat) : State :=
  let op : Word := BitVec.ofNat 16 (w % 2 ^ nbits)
  { s with
    pc := s.fetchPlace
    memory := s.memory.writeBytes s.fetchPlace.toNat [highByte op, lowByte op]
    inputs := []
    justReset := false
    awaitingKey := false }

end Sys2Proof.Machine
end

