-- ==== Sys2Proof/Safety.lean ====
section
/-! DEFINITION. The terms claims use: which parts of the state a step may change (frames), the invariant of R43, error-free runs (R256), the
end of a run (R129). -/

namespace Sys2Proof.Machine

/-- The fields of State, as names for frames. -/
inductive Part where
  | v | pc | i | stack | stackIndex | delayTimer | soundTimer | memory | pixels | keys | awaitingKey | awaitTargetRegister
  | drawPending | config | inputs | rnd | drawCount | justReset | report
  deriving DecidableEq, Repr

/-- Every part of the state outside `changed` is the same in `t` as in `s`; memory is compared byte by byte through its read. -/
structure Frame (changed : List Part) (s t : State) : Prop where
  v : Part.v ∈ changed ∨ ∀ k : Reg, t.reg k = s.reg k
  pc : Part.pc ∈ changed ∨ t.pc = s.pc
  i : Part.i ∈ changed ∨ t.i = s.i
  stack : Part.stack ∈ changed ∨ t.stack = s.stack
  stackIndex : Part.stackIndex ∈ changed ∨ t.stackIndex = s.stackIndex
  delayTimer : Part.delayTimer ∈ changed ∨ t.delayTimer = s.delayTimer
  soundTimer : Part.soundTimer ∈ changed ∨ t.soundTimer = s.soundTimer
  memory : Part.memory ∈ changed ∨ ∀ a : Nat, t.memory.read a = s.memory.read a
  pixels : Part.pixels ∈ changed ∨ t.pixels = s.pixels
  keys : Part.keys ∈ changed ∨ t.keys = s.keys
  awaitingKey : Part.awaitingKey ∈ changed ∨ t.awaitingKey = s.awaitingKey
  awaitTargetRegister : Part.awaitTargetRegister ∈ changed ∨ t.awaitTargetRegister = s.awaitTargetRegister
  drawPending : Part.drawPending ∈ changed ∨ t.drawPending = s.drawPending
  config : Part.config ∈ changed ∨ t.config = s.config
  inputs : Part.inputs ∈ changed ∨ t.inputs = s.inputs
  rnd : Part.rnd ∈ changed ∨ t.rnd = s.rnd
  drawCount : Part.drawCount ∈ changed ∨ t.drawCount = s.drawCount
  justReset : Part.justReset ∈ changed ∨ t.justReset = s.justReset
  report : Part.report ∈ changed ∨ t.report = s.report

/-- `t` is the state after the instruction at address `a`, executing in `s` (where `pc = a + 2`), raised the error `f` (R253 to R255): `pc = a`,
the report, and nothing else. -/
structure Rejected (a : Word) (f : Fault) (s t : State) : Prop where
  pc : t.pc = a
  report : t.report = .err f
  rest : Frame [.pc, .report] s t

/-- Whether the sprite that DXYN draws in `s` has a set bit at the cell (px, py) (R190): row r is the byte at `i + r`, drawn on screen row
`y0 + r`; bit 7 is column `x0`, bit 0 column `x0 + 7` (R192), with `x0 = V[x] mod 64`, `y0 = V[y] mod 32` (R193). -/
def State.spriteAt (s : State) (x y : Reg) (n : Rows) (px py : Nat) : Bool :=
  let x0 := (s.reg x).toNat % 64
  let y0 := (s.reg y).toNat % 32
  decide (x0 ≤ px ∧ px < x0 + 8 ∧ y0 ≤ py ∧ py < y0 + n.val) && (s.memory.read (s.i.toNat + (py - y0))).getLsbD (7 - (px - x0))

/-- The invariant of R43: memory in canonical form inside the 4096 bytes (f), `pc` at most 0x10FE (c), every valid stack entry at most 0x1000
(d). That the stack depth is at most 16 (a) and that registers are bytes (b) is in the types. The last field is of the model's own draw: it
belongs to one `Step` and is none between operations (log 3). -/
structure State.Inv (s : State) : Prop where
  memory : s.memory.wf = true
  pc : s.pc.toNat ≤ 0x10FE
  stack : ∀ k : Fin 16, k.val < s.stackIndex.val → s.stack[k].toNat ≤ 0x1000
  rnd : s.rnd = none

/-- The next operation is a `Step`, and `rest` stays pending after it: with nothing pending the model's own, with a free draw (log 1), else the
host's `Step(rnd)`, whose draw is this `Step`'s alone, so that none stands in `rnd` (log 3). -/
def State.stepPending (s : State) (rest : List HostOp) : Prop :=
  (s.inputs = [] ∧ rest = []) ∨ (s.rnd = none ∧ ∃ rnd, s.inputs = .step rnd :: rest)

/-- The last `Step` reported no error (R256). `Idle` is not a fault. -/
def State.errorFree (s : State) : Bool :=
  match s.report with
  | .err _ => false
  | _ => true

/-- An error-free run of n steps (R256): every step answers a next state, and none reports an error. -/
def State.safeRun : Nat → State → Bool
  | 0, _ => true
  | n + 1, s =>
    match step s with
    | .next t => t.errorFree && State.safeRun n t
    | .fault _ => false
    | .refused _ => false

/-- The end of a run (R129, the spec's modelling convenience): `pc` is at a jump to itself, and the core is not awaiting a key. -/
def State.ended (s : State) : Bool :=
  !s.awaitingKey && s.pc.toNat ≤ 0x0FFE && s.fetchWord == encode (.jp (s.pc.setWidth 12))

end Sys2Proof.Machine
end

