-- ==== Sys2Proof/Certificates/Slice0/Obligations.lean ====
section
/-! DEFINITION. The statements for the provers, from the numbered rules of the spec. Each instruction's statement says its encoding, that it
answers a next state, what that state holds, and by a `Frame` that nothing else changed; on entry `pc` holds `a + 2` (R124). -/

open Sys2Proof Sys2Proof.Machine

/-! Families 0x0, 0x1, 0x2. -/

/-- R140: 00E0 turns every pixel off and sets the draw signal, whatever the screen was. -/
def Obligations.ClsBlanksTheScreen : Prop :=
  (∀ op : Word, op = 0x00E0 ↔ decodeWord op = .ok .cls) ∧
  ∀ s : State, ∃ t, exec .cls s = .next t ∧
    (∀ x y, Screen.get t.pixels x y = false) ∧ t.drawPending = true ∧ Frame [.pixels, .drawPending] s t

/-- R141: 00EE pops into `pc`; on an empty stack it raises StackUnderflow and changes nothing. That this step is fully rejected, reporting a, is the
spec's own decision (D32, D20, log 19), and so is that entry k stands at index k (D7, log 26). -/
def Obligations.RetPopsOrUnderflows : Prop :=
  (∀ op : Word, op = 0x00EE ↔ decodeWord op = .ok .ret) ∧
  (∀ (s : State) (k : Fin 16), s.stackIndex.val = k.val + 1 → ∃ t, exec .ret s = .next t ∧
    t.pc = s.stack[k] ∧ t.stackIndex.val = k.val ∧ Frame [.pc, .stackIndex] s t) ∧
  ∀ (s : State) (a : Word), s.pc = a + 2 → s.stackIndex.val = 0 → ∃ t, exec .ret s = .next t ∧ Rejected a (.stackUnderflow a) s t

/-- R142: 1NNN puts NNN, zero extended, into `pc`. -/
def Obligations.JpLoadsPc : Prop :=
  (∀ op : Word, op &&& 0xF000 = 0x1000 → decodeWord op = .ok (.jp (fieldNNN op))) ∧
  ∀ (nnn : Addr) (s : State), ∃ t, exec (.jp nnn) s = .next t ∧ t.pc.toNat = nnn.toNat ∧ Frame [.pc] s t

/-- R143: 2NNN pushes the advanced `pc` and jumps; on a full stack it raises StackOverflow and changes nothing. That this step is fully rejected,
reporting a, is the spec's own decision (D32, D20, log 19), and so is that entry k stands at index k (D7, log 26). -/
def Obligations.CallPushesOrOverflows : Prop :=
  (∀ op : Word, op &&& 0xF000 = 0x2000 → decodeWord op = .ok (.call (fieldNNN op))) ∧
  (∀ (nnn : Addr) (s : State), s.stackIndex.val < 16 → ∃ t, exec (.call nnn) s = .next t ∧
    t.pc.toNat = nnn.toNat ∧ t.stackIndex.val = s.stackIndex.val + 1 ∧
    (∀ k : Fin 16, t.stack[k] = if k.val = s.stackIndex.val then s.pc else s.stack[k]) ∧
    Frame [.pc, .stack, .stackIndex] s t) ∧
  ∀ (nnn : Addr) (s : State) (a : Word), s.pc = a + 2 → s.stackIndex.val = 16 →
    ∃ t, exec (.call nnn) s = .next t ∧ Rejected a (.stackOverflow a) s t

/-- The §8 property of R143: a call and then a return, whatever `pc` and registers the callee left, resume after the call, at every depth. -/
def Obligations.CallThenRetResumesAfterTheCall : Prop :=
  ∀ (nnn : Addr) (s : State), s.stackIndex.val < 16 → ∃ t, exec (.call nnn) s = .next t ∧
    ∀ t' : State, t'.stack = t.stack → t'.stackIndex = t.stackIndex → ∃ u, exec .ret t' = .next u ∧
      u.pc = s.pc ∧ u.stackIndex = s.stackIndex ∧ ∀ k : Fin 16, k.val < s.stackIndex.val → u.stack[k] = s.stack[k]

/-! Families 0x3, 0x4, 0x5, 0x9. -/

/-- R150, R151: the skips on an immediate. Which pattern of the pair skips on equality is the spec's own reading (R97(c), log 14). -/
def Obligations.SkipsOnImmediate : Prop :=
  (∀ op : Word, op &&& 0xF000 = 0x3000 → decodeWord op = .ok (.seImm (fieldX op) (fieldNN op))) ∧
  (∀ op : Word, op &&& 0xF000 = 0x4000 → decodeWord op = .ok (.sneImm (fieldX op) (fieldNN op))) ∧
  ∀ (x : Reg) (nn : Byte) (s : State),
    (∃ t, exec (.seImm x nn) s = .next t ∧ t.pc = (if s.reg x = nn then s.pc + 2 else s.pc) ∧ Frame [.pc] s t) ∧
    (∃ t, exec (.sneImm x nn) s = .next t ∧ t.pc = (if s.reg x = nn then s.pc else s.pc + 2) ∧ Frame [.pc] s t)

/-- R152, R153: the skips on two registers; a non-zero low nibble is unrecognised, by the spec's own strict decoding (R95, D18, log 19), and which
pattern of the pair skips on equality is its own reading (R97(c), log 14). -/
def Obligations.SkipsOnRegisters : Prop :=
  (∀ op : Word, op &&& 0xF00F = 0x5000 → decodeWord op = .ok (.seReg (fieldX op) (fieldY op))) ∧
  (∀ op : Word, op &&& 0xF00F = 0x9000 → decodeWord op = .ok (.sneReg (fieldX op) (fieldY op))) ∧
  (∀ op : Word, (op &&& 0xF000 = 0x5000 ∨ op &&& 0xF000 = 0x9000) → op &&& 0x000F ≠ 0 → decodeWord op = .error (.unrecognised op)) ∧
  ∀ (x y : Reg) (s : State),
    (∃ t, exec (.seReg x y) s = .next t ∧ t.pc = (if s.reg x = s.reg y then s.pc + 2 else s.pc) ∧ Frame [.pc] s t) ∧
    (∃ t, exec (.sneReg x y) s = .next t ∧ t.pc = (if s.reg x = s.reg y then s.pc else s.pc + 2) ∧ Frame [.pc] s t)

/-! Families 0x6, 0x7, 0x8. -/

/-- R160, R161: load immediate, and add immediate modulo 256 without a flag, also when X is F. -/
def Obligations.ImmediatesLoadAndAdd : Prop :=
  (∀ op : Word, op &&& 0xF000 = 0x6000 → decodeWord op = .ok (.ldImm (fieldX op) (fieldNN op))) ∧
  (∀ op : Word, op &&& 0xF000 = 0x7000 → decodeWord op = .ok (.addImm (fieldX op) (fieldNN op))) ∧
  ∀ (x : Reg) (nn : Byte) (s : State),
    (∃ t, exec (.ldImm x nn) s = .next t ∧ (∀ k, t.reg k = if k = x then nn else s.reg k) ∧ Frame [.v] s t) ∧
    (∃ t, exec (.addImm x nn) s = .next t ∧
      (∀ k, (t.reg k).toNat = if k = x then ((s.reg x).toNat + nn.toNat) % 256 else (s.reg k).toNat) ∧ Frame [.v] s t)

/-- R162 to R165, R172: assign, OR, AND, XOR write `V[X]` only. That VF is not written as a flag is the spec's own reading (D24, log 16), the
low nibbles 1 to 3 are its own assignment (R97(a), log 14). -/
def Obligations.AssignAndLogicWriteOnlyX : Prop :=
  (∀ op : Word, op &&& 0xF00F = 0x8000 → decodeWord op = .ok (.ldReg (fieldX op) (fieldY op))) ∧
  (∀ op : Word, op &&& 0xF00F = 0x8001 → decodeWord op = .ok (.or (fieldX op) (fieldY op))) ∧
  (∀ op : Word, op &&& 0xF00F = 0x8002 → decodeWord op = .ok (.and (fieldX op) (fieldY op))) ∧
  (∀ op : Word, op &&& 0xF00F = 0x8003 → decodeWord op = .ok (.xor (fieldX op) (fieldY op))) ∧
  ∀ (x y : Reg) (s : State),
    (∃ t, exec (.ldReg x y) s = .next t ∧ (∀ k, t.reg k = if k = x then s.reg y else s.reg k) ∧ Frame [.v] s t) ∧
    (∃ t, exec (.or x y) s = .next t ∧ (∀ k, t.reg k = if k = x then s.reg x ||| s.reg y else s.reg k) ∧ Frame [.v] s t) ∧
    (∃ t, exec (.and x y) s = .next t ∧ (∀ k, t.reg k = if k = x then s.reg x &&& s.reg y else s.reg k) ∧ Frame [.v] s t) ∧
    (∃ t, exec (.xor x y) s = .next t ∧ (∀ k, t.reg k = if k = x then s.reg x ^^^ s.reg y else s.reg k) ∧ Frame [.v] s t)

/-- R166: 8XY4 adds modulo 256, then VF is the carry, also when X or Y is F. The low nibble 4 is the spec's own assignment (R97(a), log 14). -/
def Obligations.AddRegisterSetsCarry : Prop :=
  (∀ op : Word, op &&& 0xF00F = 0x8004 → decodeWord op = .ok (.addReg (fieldX op) (fieldY op))) ∧
  ∀ (x y : Reg) (s : State), ∃ t, exec (.addReg x y) s = .next t ∧
    (∀ k : Reg, (t.reg k).toNat =
      if k = 15 then (if 255 < (s.reg x).toNat + (s.reg y).toNat then 1 else 0)
      else if k = x then ((s.reg x).toNat + (s.reg y).toNat) % 256 else (s.reg k).toNat) ∧
    Frame [.v] s t

/-- R167: 8XY5 subtracts modulo 256, then VF is 1 iff there was no borrow. The low nibble 5 is the spec's own assignment (R97(a), log 14). -/
def Obligations.SubtractSetsNoBorrow : Prop :=
  (∀ op : Word, op &&& 0xF00F = 0x8005 → decodeWord op = .ok (.sub (fieldX op) (fieldY op))) ∧
  ∀ (x y : Reg) (s : State), ∃ t, exec (.sub x y) s = .next t ∧
    (∀ k : Reg, ((t.reg k).toNat : Int) =
      if k = 15 then (if (s.reg y).toNat ≤ (s.reg x).toNat then 1 else 0)
      else if k = x then (((s.reg x).toNat : Int) - (s.reg y).toNat) % 256 else (s.reg k).toNat) ∧
    Frame [.v] s t

/-- R169: 8XY7 subtracts the other way round, into `V[X]`; VF is 1 iff there was no borrow, a polarity the spec takes by symmetry (D25, log 16).
The low nibble 7 is the spec's own assignment (R97(a), log 14). -/
def Obligations.ReversedSubtractSetsNoBorrow : Prop :=
  (∀ op : Word, op &&& 0xF00F = 0x8007 → decodeWord op = .ok (.subn (fieldX op) (fieldY op))) ∧
  ∀ (x y : Reg) (s : State), ∃ t, exec (.subn x y) s = .next t ∧
    (∀ k : Reg, ((t.reg k).toNat : Int) =
      if k = 15 then (if (s.reg x).toNat ≤ (s.reg y).toNat then 1 else 0)
      else if k = x then (((s.reg y).toNat : Int) - (s.reg x).toNat) % 256 else (s.reg k).toNat) ∧
    Frame [.v] s t

/-- R168: 8XY6 halves the value SHIFT_SOURCE selects; VF is its bit 0. For every value of the parameter. The low nibble 6 is the spec's own
assignment (R97(a), log 14). -/
def Obligations.ShiftRightHalvesAndFlagsLsb : Prop :=
  (∀ op : Word, op &&& 0xF00F = 0x8006 → decodeWord op = .ok (.shr (fieldX op) (fieldY op))) ∧
  ∀ (x y : Reg) (s : State), ∃ t, exec (.shr x y) s = .next t ∧
    (∀ k : Reg, (t.reg k).toNat =
      if k = 15 then (if s.config.shiftSource = .vx then s.reg x else s.reg y).toNat % 2
      else if k = x then (if s.config.shiftSource = .vx then s.reg x else s.reg y).toNat / 2 else (s.reg k).toNat) ∧
    Frame [.v] s t

/-- R170: 8XYE doubles the value SHIFT_SOURCE selects, modulo 256; VF is its bit 7. For every value of the parameter. -/
def Obligations.ShiftLeftDoublesAndFlagsMsb : Prop :=
  (∀ op : Word, op &&& 0xF00F = 0x800E → decodeWord op = .ok (.shl (fieldX op) (fieldY op))) ∧
  ∀ (x y : Reg) (s : State), ∃ t, exec (.shl x y) s = .next t ∧
    (∀ k : Reg, (t.reg k).toNat =
      if k = 15 then (if s.config.shiftSource = .vx then s.reg x else s.reg y).toNat / 128
      else if k = x then (if s.config.shiftSource = .vx then s.reg x else s.reg y).toNat * 2 % 256 else (s.reg k).toNat) ∧
    Frame [.v] s t

/-! Families 0xA, 0xB, 0xC. -/

/-- R180: ANNN. -/
def Obligations.LoadIndex : Prop :=
  (∀ op : Word, op &&& 0xF000 = 0xA000 → decodeWord op = .ok (.ldI (fieldNNN op))) ∧
  ∀ (nnn : Addr) (s : State), ∃ t, exec (.ldI nnn) s = .next t ∧ t.i.toNat = nnn.toNat ∧ Frame [.i] s t

/-- R181: BNNN jumps to `V[0] + NNN`, the exact sum, never reduced modulo 0x1000. -/
def Obligations.JumpIndexedAddsV0 : Prop :=
  (∀ op : Word, op &&& 0xF000 = 0xB000 → decodeWord op = .ok (.jpV0 (fieldNNN op))) ∧
  ∀ (nnn : Addr) (s : State), ∃ t, exec (.jpV0 nnn) s = .next t ∧
    t.pc.toNat = (s.reg 0).toNat + nnn.toNat ∧ t.pc.toNat ≤ 0x10FE ∧ Frame [.pc] s t

/-- R182: CXNN is the draw AND NN; the draw is the host's where it gave one, and whatever it is, `V[X] & ~NN = 0`. That the draw stands in `rnd`
and that CXNN counts it in `drawCount`, so that free draws differ, is the model's (log 3). -/
def Obligations.RandomMasksTheDraw : Prop :=
  (∀ op : Word, op &&& 0xF000 = 0xC000 → decodeWord op = .ok (.rnd (fieldX op) (fieldNN op))) ∧
  ∀ (x : Reg) (nn : Byte) (s : State), ∃ t, exec (.rnd x nn) s = .next t ∧
    (∀ b, s.rnd = some b → t.reg x = b &&& nn) ∧ t.reg x &&& ~~~nn = 0 ∧
    (∀ k, k ≠ x → t.reg k = s.reg k) ∧ t.drawCount = s.drawCount + 1 ∧ Frame [.v, .drawCount] s t

/-! Family 0xD. -/

/-- R190, R192, R193, R195: when its rows lie in memory, DXYN toggles exactly the in-bounds cells under set sprite bits, and sets the draw
signal, also with N = 0. That bit 7 is the leftmost pixel is the spec's own choice (D27, log 15). -/
def Obligations.DrawTogglesExactlyTheSpriteCells : Prop :=
  (∀ op : Word, op &&& 0xF000 = 0xD000 → decodeWord op = .ok (.drw (fieldX op) (fieldY op) (fieldN op))) ∧
  ∀ (x y : Reg) (n : Rows) (s : State), n.val = 0 ∨ s.i.toNat + n.val ≤ 0x1000 → ∃ t, exec (.drw x y n) s = .next t ∧
    (∀ px py, px < 64 → py < 32 →
      Screen.get t.pixels px py = (if s.spriteAt x y n px py then !Screen.get s.pixels px py else Screen.get s.pixels px py)) ∧
    t.drawPending = true ∧ Frame [.v, .pixels, .drawPending] s t

/-- R194: with COLLISION_FLAG VF is 1 iff some in-bounds set sprite bit met a lit pixel, else 0; without it VF is not written. No other
register changes. The bit order of the sprite is the spec's own choice (D27, log 15). -/
def Obligations.DrawCollisionFlag : Prop :=
  ∀ (x y : Reg) (n : Rows) (s : State), n.val = 0 ∨ s.i.toNat + n.val ≤ 0x1000 → ∃ t, exec (.drw x y n) s = .next t ∧
    (∀ k : Reg, k ≠ 15 → t.reg k = s.reg k) ∧
    (s.config.collisionFlag = false → t.reg 15 = s.reg 15) ∧
    (s.config.collisionFlag = true → (t.reg 15 = 0 ∨ t.reg 15 = 1) ∧
      (t.reg 15 = 1 ↔ ∃ px py, px < 64 ∧ py < 32 ∧ s.spriteAt x y n px py = true ∧ Screen.get s.pixels px py = true))

/-- R191, R255: DXYN with a row above 0xFFF is rejected with the first such address. That a clipped row counts, and that the step is fully
rejected, are the spec's own choices (D26, D32, log 15, log 19). -/
def Obligations.DrawOutOfRangeIsRejected : Prop :=
  ∀ (x y : Reg) (n : Rows) (s : State) (a : Word), s.pc = a + 2 → 0 < n.val → 0x0FFF < s.i.toNat + n.val - 1 →
    ∃ t, exec (.drw x y n) s = .next t ∧ Rejected a (.memoryOutOfRange a (max s.i.toNat 0x1000)) s t

/-- R196: the same DXYN twice restores every pixel, when the first leaves the coordinates alone; and with COLLISION_FLAG the second flags a
collision if the first left one of the sprite's cells lit. -/
def Obligations.DrawTwiceRestoresTheScreen : Prop :=
  ∀ (x y : Reg) (n : Rows) (s : State), n.val = 0 ∨ s.i.toNat + n.val ≤ 0x1000 →
    s.config.collisionFlag = false ∨ (x ≠ 15 ∧ y ≠ 15) →
    ∃ t u, exec (.drw x y n) s = .next t ∧ exec (.drw x y n) t = .next u ∧ u.pixels = s.pixels ∧
      (s.config.collisionFlag = true →
        (∃ px py, px < 64 ∧ py < 32 ∧ s.spriteAt x y n px py = true ∧ Screen.get t.pixels px py = true) → u.reg 15 = 1)

/-! Family 0xE. -/

/-- R200 to R202: the key skips test the key numbered by the low four bits of `V[X]`; that the upper four bits are ignored is the spec's own
choice (D28, log 18), and so is which pattern is which (R97(c), log 14). -/
def Obligations.SkipsOnKeys : Prop :=
  (∀ op : Word, op &&& 0xF0FF = 0xE09E → decodeWord op = .ok (.skp (fieldX op))) ∧
  (∀ op : Word, op &&& 0xF0FF = 0xE0A1 → decodeWord op = .ok (.sknp (fieldX op))) ∧
  ∀ (x : Reg) (s : State) (k : Fin 16), k.val = (s.reg x).toNat % 16 →
    (∃ t, exec (.skp x) s = .next t ∧ t.pc = (if s.keys[k] = true then s.pc + 2 else s.pc) ∧ Frame [.pc] s t) ∧
    (∃ t, exec (.sknp x) s = .next t ∧ t.pc = (if s.keys[k] = true then s.pc else s.pc + 2) ∧ Frame [.pc] s t)

/-! Family 0xF. -/

/-- R210, R212, R213: FX07 reads the delay timer, FX15 and FX18 replace the delay and the sound timer. Which word does which is the spec's own
assignment (R97(b), log 14). -/
def Obligations.TimersReadAndWritten : Prop :=
  (∀ op : Word, op &&& 0xF0FF = 0xF007 → decodeWord op = .ok (.ldFromDT (fieldX op))) ∧
  (∀ op : Word, op &&& 0xF0FF = 0xF015 → decodeWord op = .ok (.ldDT (fieldX op))) ∧
  (∀ op : Word, op &&& 0xF0FF = 0xF018 → decodeWord op = .ok (.ldST (fieldX op))) ∧
  ∀ (x : Reg) (s : State),
    (∃ t, exec (.ldFromDT x) s = .next t ∧ (∀ k, t.reg k = if k = x then s.delayTimer else s.reg k) ∧ Frame [.v] s t) ∧
    (∃ t, exec (.ldDT x) s = .next t ∧ t.delayTimer = s.reg x ∧ Frame [.delayTimer] s t) ∧
    (∃ t, exec (.ldST x) s = .next t ∧ t.soundTimer = s.reg x ∧ Frame [.soundTimer] s t)

/-- R211: FX0A enters AwaitingKey(X); no register is written and `pc` stays past the instruction. -/
def Obligations.KeyWaitEntered : Prop :=
  (∀ op : Word, op &&& 0xF0FF = 0xF00A → decodeWord op = .ok (.ldKey (fieldX op))) ∧
  ∀ (x : Reg) (s : State), ∃ t, exec (.ldKey x) s = .next t ∧
    t.awaitingKey = true ∧ t.awaitTargetRegister = x ∧ Frame [.awaitingKey, .awaitTargetRegister] s t

/-- R214: FX1E adds to `i` modulo 65536, a wrap the spec chooses (D29, log 17); VF is never written. -/
def Obligations.AddIndexWraps : Prop :=
  (∀ op : Word, op &&& 0xF0FF = 0xF01E → decodeWord op = .ok (.addI (fieldX op))) ∧
  ∀ (x : Reg) (s : State), ∃ t, exec (.addI x) s = .next t ∧ t.i.toNat = (s.i.toNat + (s.reg x).toNat) % 65536 ∧ Frame [.i] s t

/-- R215: FX29 computes `0x050 + GLYPH_STRIDE * V[X]`, unmasked; the sum is stated where it fits in the 16 bits of `i`, which it does for
every `V[X]` with the spec's own stride 5 (C2, D15, log 7). -/
def Obligations.GlyphAddressLookup : Prop :=
  (∀ op : Word, op &&& 0xF0FF = 0xF029 → decodeWord op = .ok (.ldF (fieldX op))) ∧
  ∀ (x : Reg) (s : State), ∃ t, exec (.ldF x) s = .next t ∧
    (0x050 + s.config.glyphStride * (s.reg x).toNat < 65536 → t.i.toNat = 0x050 + s.config.glyphStride * (s.reg x).toNat) ∧
    (s.config.glyphStride = 5 → t.i.toNat = 0x050 + 5 * (s.reg x).toNat ∧ t.i.toNat ≤ 0x54B) ∧ Frame [.i] s t

/-- R216: FX33 stores the three decimal digits of `V[X]` at `i`, `i + 1`, `i + 2` and nothing else; out of range it is rejected. That it is three bytes
resolves the spec's conflict C4 and that `i` is unchanged is its decision D16 (log 17); the full rejection, reporting a, is its own (D32, D20, log 19). -/
def Obligations.BcdStoresThreeDigits : Prop :=
  (∀ op : Word, op &&& 0xF0FF = 0xF033 → decodeWord op = .ok (.ldB (fieldX op))) ∧
  (∀ (x : Reg) (s : State), s.memory.wf = true → s.i.toNat + 2 ≤ 0x0FFF → ∃ t, exec (.ldB x) s = .next t ∧
    (t.memory.read s.i.toNat).toNat = (s.reg x).toNat / 100 ∧
    (t.memory.read (s.i.toNat + 1)).toNat = (s.reg x).toNat / 10 % 10 ∧
    (t.memory.read (s.i.toNat + 2)).toNat = (s.reg x).toNat % 10 ∧
    (∀ b, (b < s.i.toNat ∨ s.i.toNat + 2 < b) → t.memory.read b = s.memory.read b) ∧ Frame [.memory] s t) ∧
  ∀ (x : Reg) (s : State) (a : Word), s.pc = a + 2 → 0x0FFF < s.i.toNat + 2 →
    ∃ t, exec (.ldB x) s = .next t ∧ Rejected a (.memoryOutOfRange a (max s.i.toNat 0x1000)) s t

/-- R217: FX55 stores V0..VX at `i`..`i + X` and nothing else; out of range it is rejected. That `i` is unchanged is the spec's own reading (D16,
log 17), and so is which pattern of the pair stores (R97(c), log 14). -/
def Obligations.BlockStoreCopiesRegisters : Prop :=
  (∀ op : Word, op &&& 0xF0FF = 0xF055 → decodeWord op = .ok (.stRegs (fieldX op))) ∧
  (∀ (x : Reg) (s : State), s.memory.wf = true → s.i.toNat + x.val ≤ 0x0FFF → ∃ t, exec (.stRegs x) s = .next t ∧
    (∀ k : Reg, k ≤ x → t.memory.read (s.i.toNat + k.val) = s.reg k) ∧
    (∀ b, (b < s.i.toNat ∨ s.i.toNat + x.val < b) → t.memory.read b = s.memory.read b) ∧ Frame [.memory] s t) ∧
  ∀ (x : Reg) (s : State) (a : Word), s.pc = a + 2 → 0x0FFF < s.i.toNat + x.val →
    ∃ t, exec (.stRegs x) s = .next t ∧ Rejected a (.memoryOutOfRange a (max s.i.toNat 0x1000)) s t

/-- R218: FX65 loads V0..VX from `i`..`i + X`, registers above X kept, `i` unchanged; out of range it is rejected. Which pattern of the pair loads is
the spec's own reading (R97(c), log 14). -/
def Obligations.BlockLoadCopiesMemory : Prop :=
  (∀ op : Word, op &&& 0xF0FF = 0xF065 → decodeWord op = .ok (.ldRegs (fieldX op))) ∧
  (∀ (x : Reg) (s : State), s.i.toNat + x.val ≤ 0x0FFF → ∃ t, exec (.ldRegs x) s = .next t ∧
    (∀ k : Reg, t.reg k = if k ≤ x then s.memory.read (s.i.toNat + k.val) else s.reg k) ∧ Frame [.v] s t) ∧
  ∀ (x : Reg) (s : State) (a : Word), s.pc = a + 2 → 0x0FFF < s.i.toNat + x.val →
    ∃ t, exec (.ldRegs x) s = .next t ∧ Rejected a (.memoryOutOfRange a (max s.i.toNat 0x1000)) s t

/-- R218's round-trip law: FX55 and then, with the register file zeroed, FX65 restores V0..VX and leaves the others zero. -/
def Obligations.StoreLoadRoundTrip : Prop :=
  ∀ (x : Reg) (s : State), s.memory.wf = true → s.i.toNat + x.val ≤ 0x0FFF →
    ∃ t u, exec (.stRegs x) s = .next t ∧ exec (.ldRegs x) { t with v := Vector.replicate 16 0 } = .next u ∧
      ∀ k : Reg, u.reg k = if k ≤ x then s.reg k else 0

/-! The Step cycle. -/

/-- R124: with no host operation pending, the step fetches the two bytes at `pc`, high byte first, and runs the instruction they decode to on
the state with `pc` advanced by 2 (and the report of a completed Step, and no longer directly after a reset); with the host's `Step(rnd)`
pending it does the same with that draw, which it discards afterwards. These three fields are the model's (log 3, log 9, log 11). -/
def Obligations.StepRunsTheDecodedInstruction : Prop :=
  ∀ (s : State) (i : Instr), s.awaitingKey = false → s.pc.toNat ≤ 0x0FFE → i.wellFormed = true →
    decode [s.memory.read s.pc.toNat, s.memory.read (s.pc.toNat + 1)] = .ok (i, []) →
    (s.inputs = [] → step s = exec i { s with pc := s.pc + 2, report := .ok, justReset := false }) ∧
    (∀ rnd rest t, s.inputs = .step rnd :: rest →
      exec i { s with pc := s.pc + 2, report := .ok, justReset := false, inputs := rest, rnd := some rnd } = .next t →
      step s = .next { t with rnd := none })

/-- R125: a fetch above 0xFFE changes nothing but the report: MemoryOutOfRange at `pc`, with the first address above 0xFFF. The fetch error is the
spec's own choice (D21, log 17), and so is its code 4 (D20, log 19). Of every Step, the host's `Step(rnd)` included, which leaves the pending
operations behind it (log 1), not directly after a reset any more (log 11). -/
def Obligations.FetchOutOfRangeIsReported : Prop :=
  ∀ (s : State) (rest : List HostOp), s.stepPending rest → s.awaitingKey = false → 0x0FFE < s.pc.toNat → ∃ t, step s = .next t ∧
    t.report = .err (.memoryOutOfRange s.pc (if s.pc = 0x0FFF then 0x1000 else s.pc.toNat)) ∧ t.report.code = some 4 ∧
    t.inputs = rest ∧ t.justReset = false ∧ Frame [.report, .inputs, .justReset] s t

/-- R126: a Step while awaiting a key changes nothing and reports Idle, wherever `pc` points and whatever the draw: the spec's own gate (D22,
log 18). Of the model's fields the pending operations (log 1) and the mark of a reset (log 11) change as in every Step. -/
def Obligations.AwaitingStepIsIdle : Prop :=
  ∀ (s : State) (rest : List HostOp), s.stepPending rest → s.awaitingKey = true → ∃ t, step s = .next t ∧
    t.report = .idle ∧ t.report.code = some 0 ∧ t.inputs = rest ∧ t.justReset = false ∧ Frame [.report, .inputs, .justReset] s t

/-- R252: an unrecognised word at a is reported; `pc = a + 2` and nothing else changes. That the report carries a, the word and the code 1 is the
spec's own decision (R250, D20, log 19), and which words are unrecognised its own (D18, log 19). Of every Step, the host's `Step(rnd)` included,
which leaves the pending operations behind it (log 1), not directly after a reset any more (log 11). -/
def Obligations.UnknownOpcodeAdvances : Prop :=
  ∀ (s : State) (rest : List HostOp) (op : Word), s.stepPending rest → s.awaitingKey = false → s.pc.toNat ≤ 0x0FFE →
    op.toNat = (s.memory.read s.pc.toNat).toNat * 256 + (s.memory.read (s.pc.toNat + 1)).toNat → op.recognised = false →
    ∃ t, step s = .next t ∧ t.pc = s.pc + 2 ∧ t.report = .err (.unknownOpcode s.pc op) ∧ t.report.code = some 1 ∧
      t.inputs = rest ∧ t.justReset = false ∧ Frame [.pc, .report, .inputs, .justReset] s t

/-- R253 to R255: a Step that reports StackOverflow, StackUnderflow or MemoryOutOfRange changed nothing else, and every further Step reports
the same again: the spec's own choice among the source's options (D32, log 19), as are the codes 2, 3, 4 (D20, log 19). Of every Step, the
host's `Step(rnd)` included, and whatever operations and draws come after; of the model's fields the pending operations and the mark of a reset
change (log 1, log 11). -/
def Obligations.RejectedStepRepeats : Prop :=
  ∀ (s t : State) (rest : List HostOp) (f : Fault), s.stepPending rest → step s = .next t → t.report = .err f →
    (∀ a op, f ≠ .unknownOpcode a op) →
    t.inputs = rest ∧ t.justReset = false ∧ Frame [.report, .inputs, .justReset] s t ∧
    t.report.code = some (match f with
      | .unknownOpcode _ _ => 1 | .stackOverflow _ => 2 | .stackUnderflow _ => 3 | .memoryOutOfRange _ _ => 4) ∧
    ∀ ops rest' : List HostOp, { t with inputs := ops }.stepPending rest' → step { t with inputs := ops } = .next { t with inputs := rest' }

/-- R250, R251: no instruction stops the machine: each answers a next state from every state. That an error is a next state with a report is the
model's form of "reported, non-fatal" (log 8). -/
def Obligations.EveryInstructionAnswersNext : Prop :=
  ∀ (i : Instr) (s : State), ∃ t, exec i s = .next t

/-- R251, R234: every step answers a next state, but for `LoadProgram` on a state that is not the one `Reset` left (but for its report, its
pending operations and its draw counter), which is refused by name: the model's form of "no meaning" (log 11). And a step after which the
state is the one `Reset` left was a `Reset`, or a refused oversized load on such a state: so a load after any `Step`, `Tick`, `SetKeys`,
`AckDraw` or accepted load is refused. -/
def Obligations.OnlyALateLoadIsRefused : Prop :=
  (∀ s : State, (∀ bytes rest, s.inputs = .loadProgram bytes :: rest → (s.setInputs rest).isAfterReset = true) → ∃ t, step s = .next t) ∧
  (∀ (s : State) bytes rest, s.inputs = .loadProgram bytes :: rest → (s.setInputs rest).isAfterReset = false →
    step s = .refused .loadNotAfterReset) ∧
  ∀ s t : State, step s = .next t → t.isAfterReset = true →
    (∃ rest, s.inputs = .reset :: rest) ∨
    ∃ bytes rest, s.inputs = .loadProgram bytes :: rest ∧ 3584 < bytes.length ∧ (s.setInputs rest).isAfterReset = true

/-- R129: at a jump to itself every further Step completes and changes nothing; the spec calls this end of a run its own modelling convenience
(D23, log 25). Of every Step, the host's `Step(rnd)` included; of the model's fields the pending operations and the mark of a reset change
(log 1, log 11), and the state after is again at that end. -/
def Obligations.JumpToSelfIsAFixedPoint : Prop :=
  ∀ (s : State) (rest : List HostOp), s.stepPending rest → s.ended = true → ∃ t, step s = .next t ∧
    t.report = .ok ∧ t.report.code = some 0 ∧ t.inputs = rest ∧ t.justReset = false ∧ t.ended = true ∧
    Frame [.report, .inputs, .justReset] s t

/-- R72: a block store onto the next instruction is what the very next fetch reads, the first register as the high byte. The spec derives it
(D10, log 17). -/
def Obligations.StoredCodeIsFetchedNext : Prop :=
  ∀ (s : State) (rest : List HostOp) (x : Reg), s.stepPending rest → s.memory.wf = true → s.awaitingKey = false → 1 ≤ x.val →
    s.pc.toNat ≤ 0x0FFC → decodeWord s.fetchWord = .ok (.stRegs x) → s.i = s.pc + 2 → s.i.toNat + x.val ≤ 0x0FFF →
    ∃ t, step s = .next t ∧ t.pc = s.i ∧ t.fetchWord.toNat = (s.reg 0).toNat * 256 + (s.reg 1).toNat

/-! Whole-machine rules. -/

/-- R43 (c), (d), (f): every step keeps memory in canonical form inside the 4096 bytes, `pc` at most 0x10FE and every valid stack entry at
most 0x1000, from every state that has them. The spec derives these; that the model's `rnd` is none between operations is the model's (log 3). -/
def Obligations.EveryStepKeepsTheInvariant : Prop :=
  ∀ s t : State, s.Inv → step s = .next t → t.Inv

/-- The state after reset has the invariant of R43 (`rnd` none is the model's, log 3). -/
def Obligations.ResetHasTheInvariant : Prop := State.reset.Inv

/-- R21, R28: VF is written as a flag by 8XY4, 8XY5, 8XY6, 8XY7, 8XYE, which leave 0 or 1 in it, and with COLLISION_FLAG by DXYN; every other
instruction leaves VF alone unless it is its destination. -/
def Obligations.OnlyFlagWritersTouchVF : Prop :=
  ∀ (i : Instr) (s t : State), exec i s = .next t →
    match i with
    | .addReg _ _ | .sub _ _ | .shr _ _ | .subn _ _ | .shl _ _ => t.reg 15 = 0 ∨ t.reg 15 = 1
    | .drw _ _ _ => s.config.collisionFlag = false → t.reg 15 = s.reg 15
    | .ldImm x _ | .addImm x _ | .ldReg x _ | .or x _ | .and x _ | .xor x _ | .rnd x _ | .ldFromDT x | .ldRegs x =>
      x ≠ 15 → t.reg 15 = s.reg 15
    | .cls | .ret | .jp _ | .call _ | .seImm _ _ | .sneImm _ _ | .seReg _ _ | .sneReg _ _ | .ldI _ | .jpV0 _ | .skp _ | .sknp _
    | .ldKey _ | .ldDT _ | .ldST _ | .addI _ | .ldF _ | .ldB _ | .stRegs _ => t.reg 15 = s.reg 15

/-- R267: a step leaves AwaitingKey only by `SetKeys` with a newly pressed key, or by `Reset` (R281, the spec's own reading, D33, log 19). -/
def Obligations.OnlyAKeyEdgeWakesTheCore : Prop :=
  ∀ s t : State, s.awaitingKey = true → step s = .next t → t.awaitingKey = false →
    (∃ new rest, s.inputs = .setKeys new :: rest ∧ ∃ k : Fin 16, new[k] = true ∧ s.keys[k] = false) ∨
    (∃ rest, s.inputs = .reset :: rest)

/-- R211, R35: a step enters AwaitingKey only by executing FX0A. -/
def Obligations.OnlyKeyWaitSuspends : Prop :=
  ∀ s t : State, s.awaitingKey = false → step s = .next t → t.awaitingKey = true →
    (s.inputs = [] ∨ ∃ rnd rest, s.inputs = .step rnd :: rest) ∧
      decodeWord s.fetchWord = .ok (.ldKey t.awaitTargetRegister)

/-- R288: a timer increases only in a Step that executes FX15 (delay) or FX18 (sound). -/
def Obligations.TimersRiseOnlyByTheirWriters : Prop :=
  ∀ s t : State, step s = .next t →
    (s.delayTimer.toNat < t.delayTimer.toNat →
      (s.inputs = [] ∨ ∃ rnd rest, s.inputs = .step rnd :: rest) ∧ ∃ x, decodeWord s.fetchWord = .ok (.ldDT x)) ∧
    (s.soundTimer.toNat < t.soundTimer.toNat →
      (s.inputs = [] ∨ ∃ rnd rest, s.inputs = .step rnd :: rest) ∧ ∃ x, decodeWord s.fetchWord = .ok (.ldST x))

/-- R36: the draw signal is cleared only by `AckDraw` and `Reset` (R281, the spec's own reading, D33, log 19), and set only by a Step that executes
00E0 or DXYN. -/
def Obligations.DrawSignalSetAndClearedOnlyByItsOwners : Prop :=
  ∀ s t : State, step s = .next t →
    (s.drawPending = true → t.drawPending = false → ∃ rest, s.inputs = .ackDraw :: rest ∨ s.inputs = .reset :: rest) ∧
    (s.drawPending = false → t.drawPending = true →
      (s.inputs = [] ∨ ∃ rnd rest, s.inputs = .step rnd :: rest) ∧
      (decodeWord s.fetchWord = .ok .cls ∨ ∃ x y n, decodeWord s.fetchWord = .ok (.drw x y n)))

/-- R128: the draw of a Step influences its result only when the executed instruction is CXNN, which the spec derives from its rules. -/
def Obligations.DrawInfluencesOnlyRandom : Prop :=
  ∀ (s : State) (rest : List HostOp) (r r' : Byte), (∀ x nn, decodeWord s.fetchWord ≠ .ok (.rnd x nn)) →
    step { s with inputs := .step r :: rest } = step { s with inputs := .step r' :: rest }

/-! The host's operations. -/

/-- R230: `Tick` takes one from each timer that is not zero, in Running and in AwaitingKey alike, and writes nothing else. That
it counts while awaiting is the spec's own decision (D3, log 18); of the model's fields the pending operations and the mark of a reset change
(log 1, log 11). -/
def Obligations.TickDecrementsBothTimers : Prop :=
  ∀ (s : State) (rest : List HostOp), s.inputs = .tick :: rest → ∃ t, step s = .next t ∧
    t.delayTimer.toNat = s.delayTimer.toNat - 1 ∧ t.soundTimer.toNat = s.soundTimer.toNat - 1 ∧ t.inputs = rest ∧ t.justReset = false ∧
    Frame [.delayTimer, .soundTimer, .inputs, .justReset] s t

/-- R231: `SetKeys` stores the sample; when the core is not awaiting a key, or no key is newly pressed, nothing else changes (but the model's
pending operations and mark of a reset, log 1, log 11). -/
def Obligations.SetKeysStoresTheSample : Prop :=
  ∀ (s : State) (new : Vector Bool 16) (rest : List HostOp), s.inputs = .setKeys new :: rest →
    (s.awaitingKey = false ∨ ∀ k : Fin 16, new[k] = true → s.keys[k] = true) →
    ∃ t, step s = .next t ∧ t.keys = new ∧ t.inputs = rest ∧ t.justReset = false ∧ Frame [.keys, .inputs, .justReset] s t

/-- R232: while awaiting, the lowest newly pressed key goes to the target register as its number, and the core runs again; nothing else
changes besides the sample (and the model's pending operations and mark of a reset, log 1, log 11). That it is the lowest is the spec's own
choice (D30, log 18). -/
def Obligations.LowestKeyEdgeResolvesTheWait : Prop :=
  ∀ (s : State) (new : Vector Bool 16) (rest : List HostOp) (k : Fin 16), s.inputs = .setKeys new :: rest → s.awaitingKey = true →
    new[k] = true → s.keys[k] = false → (∀ j : Fin 16, j < k → new[j] = true → s.keys[j] = true) →
    ∃ t, step s = .next t ∧ t.awaitingKey = false ∧ t.keys = new ∧ t.inputs = rest ∧ t.justReset = false ∧
      (∀ r : Reg, (t.reg r).toNat = if r = s.awaitTargetRegister then k.val else (s.reg r).toNat) ∧
      Frame [.v, .awaitingKey, .keys, .inputs, .justReset] s t

/-- R233: `AckDraw` clears the draw signal and nothing else (but the model's pending operations and mark of a reset, log 1, log 11). -/
def Obligations.AckDrawClearsTheSignal : Prop :=
  ∀ (s : State) (rest : List HostOp), s.inputs = .ackDraw :: rest → ∃ t, step s = .next t ∧
    t.drawPending = false ∧ t.inputs = rest ∧ t.justReset = false ∧ Frame [.drawPending, .inputs, .justReset] s t

/-- R234: `LoadProgram` on the state `Reset` left puts the bytes at 0x200 up and changes nothing else; more than 3584 bytes are refused, no
byte written, the spec's own choice (D31). That the refusal is reported in `report` is the model's (log 11). -/
def Obligations.LoadProgramPlacesTheBytes : Prop :=
  ∀ (s : State) (bytes : List Byte) (rest : List HostOp), s.inputs = .loadProgram bytes :: rest →
    (s.setInputs rest).isAfterReset = true →
    (bytes.length ≤ 3584 → ∃ t, step s = .next t ∧
      (∀ k, (h : k < bytes.length) → t.memory.read (0x200 + k) = bytes[k]) ∧
      (∀ a, (a < 0x200 ∨ 0x200 + bytes.length ≤ a) → t.memory.read a = s.memory.read a) ∧
      t.inputs = rest ∧ t.justReset = false ∧ Frame [.memory, .inputs, .justReset] s t) ∧
    (3584 < bytes.length → ∃ t, step s = .next t ∧ t.report = .loadRefused ∧ t.inputs = rest ∧ Frame [.inputs, .report] s t)

/-- What R280 says each piece of state holds after `Reset`, with FONT the parameter, from any state (R281, the spec's own reading, D33, log 19). That
the parameters and the pending operations stay, and that a load may follow now, is the model's (log 22, log 11). -/
def Obligations.ResetOperationReestablishesTheTable : Prop :=
  ∀ (s : State) (rest : List HostOp), s.inputs = .reset :: rest → ∃ t, step s = .next t ∧
    (∀ k, t.reg k = 0) ∧ t.pc = 0x0200 ∧ t.i = 0 ∧ (∀ k : Fin 16, t.stack[k] = 0) ∧ t.stackIndex = 0 ∧
    t.delayTimer = 0 ∧ t.soundTimer = 0 ∧
    (∀ k : Fin 80, t.memory.read (0x050 + k.val) = s.config.font[k]) ∧
    (∀ a, (a < 0x050 ∨ 0x09F < a) → t.memory.read a = 0) ∧
    (∀ x y, Screen.get t.pixels x y = false) ∧ (∀ k : Fin 16, t.keys[k] = false) ∧
    t.awaitingKey = false ∧ t.awaitTargetRegister = 0 ∧ t.drawPending = false ∧ t.config = s.config ∧ t.inputs = rest ∧
    t.isAfterReset = true

/-- R280 of the state the machine starts in, with the parameters of the spec's test vectors (log 4, log 5, log 6). -/
def Obligations.ResetStateIsTheTable : Prop :=
  (∀ k, State.reset.reg k = 0) ∧ State.reset.pc = 0x0200 ∧ State.reset.i = 0 ∧ (∀ k : Fin 16, State.reset.stack[k] = 0) ∧
  State.reset.stackIndex = 0 ∧ State.reset.delayTimer = 0 ∧ State.reset.soundTimer = 0 ∧
  (∀ k : Fin 80, State.reset.memory.read (0x050 + k.val) = State.reset.config.font[k]) ∧
  (∀ a, (a < 0x050 ∨ 0x09F < a) → State.reset.memory.read a = 0) ∧
  (∀ x y, Screen.get State.reset.pixels x y = false) ∧ (∀ k : Fin 16, State.reset.keys[k] = false) ∧
  State.reset.awaitingKey = false ∧ State.reset.awaitTargetRegister = 0 ∧ State.reset.drawPending = false

/-- R122: the four operations of a frame, always all four issued, leave what the reference frame leaves (which issues `Step` only when not
awaiting and `AckDraw` only when the signal is set), but for the report; and the same report too when the `Step` was issued. `Idle` is the spec's
own gate (D22, log 18), the operations as a list the model's (log 1). -/
def Obligations.FrameOfFourIsTheReferenceFrame : Prop :=
  ∀ (s : State) (new : Vector Bool 16) (rnd : Byte), s.inputs = [] → s.rnd = none →
    ∃ t u, Host.Core.run core 4 { s with inputs := [.setKeys new, .step rnd, .tick, .ackDraw] } = .next t ∧
      referenceFrame new rnd s = .next u ∧ Frame [.report] u t ∧ ((s.setKeys new).awaitingKey = false → t = u)

/-! Encoding. -/

/-- Decoding the bytes of an encoded instruction, whatever follows them, gives it back with every operand (R61, R92, R93, R96). -/
def Obligations.DecodeOfEncode : Prop :=
  ∀ (i : Instr) (rest : List Byte), i.wellFormed = true → decodeWord (encode i) = .ok i ∧ decode (encodeBytes i ++ rest) = .ok (i, rest)

/-- Encoding a decoded word gives the word back: no bit of a recognised word is ignored (R95; strictness is the spec's own choice, D18, log 19). -/
def Obligations.EncodeOfDecode : Prop :=
  ∀ (op : Word) (i : Instr), decodeWord op = .ok i → encode i = op

/-- R96, R98: the decode function and the mask and match rows agree: a word decodes to an instruction iff exactly one row selects it, and that
is the row of the instruction's mnemonic. The assignment of some rows' patterns is the spec's own (R97, log 14). -/
def Obligations.DecodeAgreesWithTheOpcodeMap : Prop :=
  (∀ (op : Word) (i : Instr), decodeWord op = .ok i →
    ∃ r ∈ opcodeTable, r.selects op = true ∧ r.mnemonic = i.mnemonic ∧ ∀ r' ∈ opcodeTable, r'.selects op = true → r' = r) ∧
  (∀ op : Word, op.recognised = true → ∃ i, decodeWord op = .ok i)

/-- R94, R95: exactly the words of the table of R95 are unrecognised, family by family, and decoding names the word. Strictness is the spec's own
choice (D18, log 19). -/
def Obligations.UnrecognisedWordsAreExactlyThese : Prop :=
  ∀ op : Word, decodeWord op = .error (.unrecognised op) ↔
    (op &&& 0xF000 = 0x0000 ∧ op ≠ 0x00E0 ∧ op ≠ 0x00EE) ∨
    (op &&& 0xF000 = 0x5000 ∧ op &&& 0x000F ≠ 0) ∨
    (op &&& 0xF000 = 0x8000 ∧ (op &&& 0x000F).toNat ∈ [8, 9, 0xA, 0xB, 0xC, 0xD, 0xF]) ∨
    (op &&& 0xF000 = 0x9000 ∧ op &&& 0x000F ≠ 0) ∨
    (op &&& 0xF000 = 0xE000 ∧ (op &&& 0x00FF).toNat ∉ [0x9E, 0xA1]) ∨
    (op &&& 0xF000 = 0xF000 ∧ (op &&& 0x00FF).toNat ∉ [0x07, 0x0A, 0x15, 0x18, 0x1E, 0x29, 0x33, 0x55, 0x65])

/-- Words of the spec's own examples and vectors decode to the instructions they stand for (R96, R98). -/
def Obligations.ExampleWordsDecode : Prop :=
  decodeTableWord 16 0x00E0 = some .cls ∧ decodeTableWord 16 0x1200 = some (.jp 0x200) ∧
  decodeTableWord 16 0x3207 = some (.seImm 2 0x07) ∧ decodeTableWord 16 0x5120 = some (.seReg 1 2) ∧
  decodeTableWord 16 0x8AB4 = some (.addReg 10 11) ∧ decodeTableWord 16 0xA2F0 = some (.ldI 0x2F0) ∧
  decodeTableWord 16 0xD015 = some (.drw 0 1 5) ∧ decodeTableWord 16 0xE59E = some (.skp 5) ∧
  decodeTableWord 16 0xF533 = some (.ldB 5) ∧ decodeTableWord 16 0x0123 = none ∧ decodeTableWord 16 0x5AB1 = none
end

