-- ==== Sys2Proof/Laws/Memory.lean ====
section
/-! SUPPORT. The laws of memory: a read after a write, that every write keeps the canonical form, and that equal memories are equal data. -/

namespace Sys2Proof.Machine.Memory

theorem rising_mono {lo lo' : Nat} {m : Memory} (h : rising lo m = true) (hl : lo' ≤ lo) : rising lo' m = true := by
  cases m with
  | nil => rfl
  | cons c m =>
    simp only [rising, Bool.and_eq_true, decide_eq_true_eq] at h ⊢
    exact ⟨by omega, h.2⟩

/-- Below its lowest cell a memory reads as unlisted. -/
theorem read_below {m : Memory} {lo a : Nat} (h : rising lo m = true) (ha : a < lo) : read m a = unlisted a := by
  induction m generalizing lo with
  | nil => rfl
  | cons c m ih =>
    simp only [rising, Bool.and_eq_true, decide_eq_true_eq] at h
    rw [read, if_neg (by omega)]
    exact ih h.2 (by omega)

theorem rising_putCell {m : Memory} {lo a : Nat} (b : Byte) (ha : lo ≤ a) (h : rising (a + 1) m = true) :
    rising lo (putCell a b m) = true := by
  unfold putCell
  split
  · exact rising_mono h (by omega)
  · simp [rising, ha, h]

theorem rising_insert {m : Memory} {lo a : Nat} (b : Byte) (h : rising lo m = true) (ha : lo ≤ a) :
    rising lo (insert m a b) = true := by
  induction m generalizing lo with
  | nil => exact rising_putCell b ha rfl
  | cons c m ih =>
    simp only [rising, Bool.and_eq_true, decide_eq_true_eq] at h
    simp only [insert]
    split
    · exact rising_putCell b ha (by simp [rising, h.2]; omega)
    · split
      · rename_i e; subst e; exact rising_putCell b ha h.2
      · simp only [rising, Bool.and_eq_true, decide_eq_true_eq]
        exact ⟨h.1, ih h.2 (by omega)⟩

theorem read_putCell {m : Memory} {a : Nat} (b : Byte) (a' : Nat) (h : rising (a + 1) m = true) :
    read (putCell a b m) a' = if a' = a then b else read m a' := by
  unfold putCell
  split
  · split
    · rename_i e e'; rw [e', e]; exact read_below h (by omega)
    · rfl
  · simp only [read, eq_comm]

theorem read_insert {m : Memory} {lo : Nat} (a : Nat) (b : Byte) (a' : Nat) (h : rising lo m = true) :
    read (insert m a b) a' = if a' = a then b else read m a' := by
  induction m generalizing lo with
  | nil => exact read_putCell b a' rfl
  | cons c m ih =>
    simp only [rising, Bool.and_eq_true, decide_eq_true_eq] at h
    simp only [insert]
    split
    · exact read_putCell b a' (by simp [rising, h.2]; omega)
    · split
      · rename_i e; subst e
        rw [read_putCell b a' h.2]
        split
        · rfl
        · rw [read, if_neg (by omega)]
      · simp only [read, ih h.2]
        split <;> split <;> first | rfl | omega

theorem wf_rising {m : Memory} (h : m.wf = true) : rising 0 m = true := by
  simp only [wf, Bool.and_eq_true] at h; exact h.1

/-- A cell is in range and not equal to what its address reads as unlisted. -/
abbrev Good (c : Host.Cell) : Prop := c.1 < Config.memSize ∧ c.2 ≠ unlisted c.1

theorem wf_iff {m : Memory} : m.wf = true ↔ rising 0 m = true ∧ ∀ c ∈ m, Good c := by
  simp only [wf, Bool.and_eq_true, List.all_eq_true, decide_eq_true_eq, bne_iff_ne, Good]

theorem mem_putCell {m : Memory} {a : Nat} {b : Byte} {c : Host.Cell} (h : c ∈ putCell a b m) :
    c ∈ m ∨ (c = (a, b) ∧ b ≠ unlisted a) := by
  unfold putCell at h
  split at h
  · exact .inl h
  · rcases List.mem_cons.mp h with h | h
    · exact .inr ⟨h, ‹_›⟩
    · exact .inl h

theorem mem_insert {m : Memory} {a : Nat} {b : Byte} {c : Host.Cell} (h : c ∈ insert m a b) :
    c ∈ m ∨ (c = (a, b) ∧ b ≠ unlisted a) := by
  induction m with
  | nil => exact mem_putCell h
  | cons d m ih =>
    simp only [insert] at h
    split at h
    · exact mem_putCell h
    · split at h
      · exact (mem_putCell h).imp (List.mem_cons_of_mem _) id
      · rcases List.mem_cons.mp h with h | h
        · exact .inl (h ▸ List.mem_cons_self)
        · exact (ih h).imp (List.mem_cons_of_mem _) id

/-- Every write keeps the canonical form. -/
theorem wf_write {m : Memory} (a : Nat) (b : Byte) (h : m.wf = true) : (m.write a b).wf = true := by
  unfold write
  split
  · rename_i ha
    rw [wf_iff] at h ⊢
    refine ⟨rising_insert b h.1 (by omega), fun c hc => ?_⟩
    rcases mem_insert hc with hc | ⟨rfl, hb⟩
    · exact h.2 c hc
    · exact ⟨ha, hb⟩
  · exact h

/-- A read after a write in range: the byte written there, everything else as before. -/
theorem read_write {m : Memory} {a : Nat} (b : Byte) (a' : Nat) (h : m.wf = true) (ha : a < Config.memSize) :
    (m.write a b).read a' = if a' = a then b else m.read a' := by
  rw [write, if_pos ha]; exact read_insert a b a' (wf_rising h)

theorem wf_writeBytes {m : Memory} (a : Nat) (bs : List Byte) (h : m.wf = true) : (m.writeBytes a bs).wf = true := by
  induction bs generalizing m a with
  | nil => exact h
  | cons b bs ih => exact ih (a + 1) (wf_write a b h)

/-- Reading after writing consecutive bytes in range: byte `a' - a` of them inside, everything else as before. -/
theorem read_writeBytes {m : Memory} {a : Nat} {bs : List Byte} (a' : Nat) (h : m.wf = true)
    (hr : bs = [] ∨ a + bs.length ≤ Config.memSize) :
    (m.writeBytes a bs).read a' = if a ≤ a' ∧ a' < a + bs.length then bs.getD (a' - a) 0 else m.read a' := by
  induction bs generalizing m a with
  | nil => simp [writeBytes]
  | cons b bs ih =>
    simp only [reduceCtorEq, List.length_cons, false_or] at hr
    rw [writeBytes, ih (wf_write a b h) (.inr (by omega)), read_write b a' h (by omega)]
    rcases Nat.lt_trichotomy a' a with l | l | l
    · simp [show ¬ a + 1 ≤ a' by omega, show ¬ a ≤ a' by omega, show a' ≠ a by omega]
    · subst l; simp
    · have e : a' - a = (a' - (a + 1)) + 1 := by omega
      simp only [List.length_cons, e, List.getD_cons_succ, show a' ≠ a by omega, if_false]
      congr 1
      simp only [eq_iff_iff]; omega

@[simp] theorem length_readBytes (m : Memory) (a n : Nat) : (m.readBytes a n).length = n := by
  induction n generalizing a with
  | zero => rfl
  | succ n ih => simp [readBytes, ih]

theorem getD_readBytes (m : Memory) (a : Nat) {n k : Nat} (h : k < n) : (m.readBytes a n).getD k 0 = m.read (a + k) := by
  induction n generalizing a k with
  | zero => omega
  | succ n ih =>
    cases k with
    | zero => simp [readBytes]
    | succ k => rw [readBytes, List.getD_cons_succ, ih (a + 1) (by omega)]; congr 1; omega

/-- Two memories in canonical form that read alike at every address are equal data. -/
theorem ext_read {m m' : Memory} (h : m.wf = true) (h' : m'.wf = true) (e : ∀ a, m.read a = m'.read a) : m = m' := by
  rw [wf_iff] at h h'
  suffices H : ∀ (lo : Nat) (m m' : Memory), rising lo m = true → rising lo m' = true → (∀ c ∈ m, Good c) → (∀ c ∈ m', Good c) →
      (∀ a, lo ≤ a → m.read a = m'.read a) → m = m' from H 0 m m' h.1 h'.1 h.2 h'.2 fun a _ => e a
  intro lo m
  induction m generalizing lo with
  | nil =>
    intro m' _ hr' _ hg' e
    cases m' with
    | nil => rfl
    | cons c' m' =>
      simp only [rising, Bool.and_eq_true, decide_eq_true_eq] at hr'
      have := e c'.1 hr'.1
      rw [read, read, if_pos rfl] at this
      exact absurd this.symm (hg' c' List.mem_cons_self).2
  | cons c m ih =>
    intro m' hr hr' hg hg' e
    simp only [rising, Bool.and_eq_true, decide_eq_true_eq] at hr
    have hc := hg c List.mem_cons_self
    cases m' with
    | nil =>
      have := e c.1 hr.1
      rw [read, read, if_pos rfl] at this
      exact absurd this hc.2
    | cons c' m' =>
      simp only [rising, Bool.and_eq_true, decide_eq_true_eq] at hr'
      have hc' := hg' c' List.mem_cons_self
      rcases Nat.lt_trichotomy c.1 c'.1 with l | l | l
      · have := e c.1 hr.1
        rw [read, if_pos rfl, read, if_neg (by omega), read_below hr'.2 (by omega)] at this
        exact absurd this hc.2
      · have hb := e c.1 hr.1
        rw [read, if_pos rfl, read, if_pos l.symm] at hb
        have hcc : c = c' := Prod.ext l hb
        subst hcc
        congr 1
        refine ih (c.1 + 1) m' hr.2 hr'.2 (fun d hd => hg d (List.mem_cons_of_mem _ hd))
          (fun d hd => hg' d (List.mem_cons_of_mem _ hd)) fun a ha => ?_
        have := e a (by omega)
        rwa [read, if_neg (by omega), read, if_neg (by omega)] at this
      · have := e c'.1 hr'.1
        rw [read, if_neg (by omega), read_below hr.2 (by omega), read, if_pos rfl] at this
        exact absurd this.symm hc'.2

end Sys2Proof.Machine.Memory
end

