-- ==== Sys2Proof/Laws/State.lean ====
section
/-! SUPPORT. One lemma per field per update of State, true by rfl, so that no proof unfolds a record update. -/

namespace Sys2Proof.Machine

variable (s : State)

@[simp] theorem State.setReg_v (k : Reg) (b : Byte) : (s.setReg k b).v = s.v.set k b := rfl
@[simp] theorem State.setReg_pc (k : Reg) (b : Byte) : (s.setReg k b).pc = s.pc := rfl
@[simp] theorem State.setReg_i (k : Reg) (b : Byte) : (s.setReg k b).i = s.i := rfl
@[simp] theorem State.setReg_stack (k : Reg) (b : Byte) : (s.setReg k b).stack = s.stack := rfl
@[simp] theorem State.setReg_stackIndex (k : Reg) (b : Byte) : (s.setReg k b).stackIndex = s.stackIndex := rfl
@[simp] theorem State.setReg_delayTimer (k : Reg) (b : Byte) : (s.setReg k b).delayTimer = s.delayTimer := rfl
@[simp] theorem State.setReg_soundTimer (k : Reg) (b : Byte) : (s.setReg k b).soundTimer = s.soundTimer := rfl
@[simp] theorem State.setReg_memory (k : Reg) (b : Byte) : (s.setReg k b).memory = s.memory := rfl
@[simp] theorem State.setReg_pixels (k : Reg) (b : Byte) : (s.setReg k b).pixels = s.pixels := rfl
@[simp] theorem State.setReg_keys (k : Reg) (b : Byte) : (s.setReg k b).keys = s.keys := rfl
@[simp] theorem State.setReg_awaitingKey (k : Reg) (b : Byte) : (s.setReg k b).awaitingKey = s.awaitingKey := rfl
@[simp] theorem State.setReg_awaitTargetRegister (k : Reg) (b : Byte) : (s.setReg k b).awaitTargetRegister = s.awaitTargetRegister := rfl
@[simp] theorem State.setReg_drawPending (k : Reg) (b : Byte) : (s.setReg k b).drawPending = s.drawPending := rfl
@[simp] theorem State.setReg_config (k : Reg) (b : Byte) : (s.setReg k b).config = s.config := rfl
@[simp] theorem State.setReg_inputs (k : Reg) (b : Byte) : (s.setReg k b).inputs = s.inputs := rfl
@[simp] theorem State.setReg_rnd (k : Reg) (b : Byte) : (s.setReg k b).rnd = s.rnd := rfl
@[simp] theorem State.setReg_drawCount (k : Reg) (b : Byte) : (s.setReg k b).drawCount = s.drawCount := rfl
@[simp] theorem State.setReg_report (k : Reg) (b : Byte) : (s.setReg k b).report = s.report := rfl
@[simp] theorem State.setReg_justReset (k : Reg) (b : Byte) : (s.setReg k b).justReset = s.justReset := rfl

@[simp] theorem State.setRegs_v (w : Vector Byte 16) : (s.setRegs w).v = w := rfl
@[simp] theorem State.setRegs_pc (w : Vector Byte 16) : (s.setRegs w).pc = s.pc := rfl
@[simp] theorem State.setRegs_i (w : Vector Byte 16) : (s.setRegs w).i = s.i := rfl
@[simp] theorem State.setRegs_stack (w : Vector Byte 16) : (s.setRegs w).stack = s.stack := rfl
@[simp] theorem State.setRegs_stackIndex (w : Vector Byte 16) : (s.setRegs w).stackIndex = s.stackIndex := rfl
@[simp] theorem State.setRegs_delayTimer (w : Vector Byte 16) : (s.setRegs w).delayTimer = s.delayTimer := rfl
@[simp] theorem State.setRegs_soundTimer (w : Vector Byte 16) : (s.setRegs w).soundTimer = s.soundTimer := rfl
@[simp] theorem State.setRegs_memory (w : Vector Byte 16) : (s.setRegs w).memory = s.memory := rfl
@[simp] theorem State.setRegs_pixels (w : Vector Byte 16) : (s.setRegs w).pixels = s.pixels := rfl
@[simp] theorem State.setRegs_keys (w : Vector Byte 16) : (s.setRegs w).keys = s.keys := rfl
@[simp] theorem State.setRegs_awaitingKey (w : Vector Byte 16) : (s.setRegs w).awaitingKey = s.awaitingKey := rfl
@[simp] theorem State.setRegs_awaitTargetRegister (w : Vector Byte 16) : (s.setRegs w).awaitTargetRegister = s.awaitTargetRegister := rfl
@[simp] theorem State.setRegs_drawPending (w : Vector Byte 16) : (s.setRegs w).drawPending = s.drawPending := rfl
@[simp] theorem State.setRegs_config (w : Vector Byte 16) : (s.setRegs w).config = s.config := rfl
@[simp] theorem State.setRegs_inputs (w : Vector Byte 16) : (s.setRegs w).inputs = s.inputs := rfl
@[simp] theorem State.setRegs_rnd (w : Vector Byte 16) : (s.setRegs w).rnd = s.rnd := rfl
@[simp] theorem State.setRegs_drawCount (w : Vector Byte 16) : (s.setRegs w).drawCount = s.drawCount := rfl
@[simp] theorem State.setRegs_report (w : Vector Byte 16) : (s.setRegs w).report = s.report := rfl
@[simp] theorem State.setRegs_justReset (w : Vector Byte 16) : (s.setRegs w).justReset = s.justReset := rfl

@[simp] theorem State.setPc_v (w : Word) : (s.setPc w).v = s.v := rfl
@[simp] theorem State.setPc_pc (w : Word) : (s.setPc w).pc = w := rfl
@[simp] theorem State.setPc_i (w : Word) : (s.setPc w).i = s.i := rfl
@[simp] theorem State.setPc_stack (w : Word) : (s.setPc w).stack = s.stack := rfl
@[simp] theorem State.setPc_stackIndex (w : Word) : (s.setPc w).stackIndex = s.stackIndex := rfl
@[simp] theorem State.setPc_delayTimer (w : Word) : (s.setPc w).delayTimer = s.delayTimer := rfl
@[simp] theorem State.setPc_soundTimer (w : Word) : (s.setPc w).soundTimer = s.soundTimer := rfl
@[simp] theorem State.setPc_memory (w : Word) : (s.setPc w).memory = s.memory := rfl
@[simp] theorem State.setPc_pixels (w : Word) : (s.setPc w).pixels = s.pixels := rfl
@[simp] theorem State.setPc_keys (w : Word) : (s.setPc w).keys = s.keys := rfl
@[simp] theorem State.setPc_awaitingKey (w : Word) : (s.setPc w).awaitingKey = s.awaitingKey := rfl
@[simp] theorem State.setPc_awaitTargetRegister (w : Word) : (s.setPc w).awaitTargetRegister = s.awaitTargetRegister := rfl
@[simp] theorem State.setPc_drawPending (w : Word) : (s.setPc w).drawPending = s.drawPending := rfl
@[simp] theorem State.setPc_config (w : Word) : (s.setPc w).config = s.config := rfl
@[simp] theorem State.setPc_inputs (w : Word) : (s.setPc w).inputs = s.inputs := rfl
@[simp] theorem State.setPc_rnd (w : Word) : (s.setPc w).rnd = s.rnd := rfl
@[simp] theorem State.setPc_drawCount (w : Word) : (s.setPc w).drawCount = s.drawCount := rfl
@[simp] theorem State.setPc_report (w : Word) : (s.setPc w).report = s.report := rfl
@[simp] theorem State.setPc_justReset (w : Word) : (s.setPc w).justReset = s.justReset := rfl

@[simp] theorem State.setI_v (w : Word) : (s.setI w).v = s.v := rfl
@[simp] theorem State.setI_pc (w : Word) : (s.setI w).pc = s.pc := rfl
@[simp] theorem State.setI_i (w : Word) : (s.setI w).i = w := rfl
@[simp] theorem State.setI_stack (w : Word) : (s.setI w).stack = s.stack := rfl
@[simp] theorem State.setI_stackIndex (w : Word) : (s.setI w).stackIndex = s.stackIndex := rfl
@[simp] theorem State.setI_delayTimer (w : Word) : (s.setI w).delayTimer = s.delayTimer := rfl
@[simp] theorem State.setI_soundTimer (w : Word) : (s.setI w).soundTimer = s.soundTimer := rfl
@[simp] theorem State.setI_memory (w : Word) : (s.setI w).memory = s.memory := rfl
@[simp] theorem State.setI_pixels (w : Word) : (s.setI w).pixels = s.pixels := rfl
@[simp] theorem State.setI_keys (w : Word) : (s.setI w).keys = s.keys := rfl
@[simp] theorem State.setI_awaitingKey (w : Word) : (s.setI w).awaitingKey = s.awaitingKey := rfl
@[simp] theorem State.setI_awaitTargetRegister (w : Word) : (s.setI w).awaitTargetRegister = s.awaitTargetRegister := rfl
@[simp] theorem State.setI_drawPending (w : Word) : (s.setI w).drawPending = s.drawPending := rfl
@[simp] theorem State.setI_config (w : Word) : (s.setI w).config = s.config := rfl
@[simp] theorem State.setI_inputs (w : Word) : (s.setI w).inputs = s.inputs := rfl
@[simp] theorem State.setI_rnd (w : Word) : (s.setI w).rnd = s.rnd := rfl
@[simp] theorem State.setI_drawCount (w : Word) : (s.setI w).drawCount = s.drawCount := rfl
@[simp] theorem State.setI_report (w : Word) : (s.setI w).report = s.report := rfl
@[simp] theorem State.setI_justReset (w : Word) : (s.setI w).justReset = s.justReset := rfl

@[simp] theorem State.setStack_v (st : Vector Word 16) (n : Fin 17) : (s.setStack st n).v = s.v := rfl
@[simp] theorem State.setStack_pc (st : Vector Word 16) (n : Fin 17) : (s.setStack st n).pc = s.pc := rfl
@[simp] theorem State.setStack_i (st : Vector Word 16) (n : Fin 17) : (s.setStack st n).i = s.i := rfl
@[simp] theorem State.setStack_stack (st : Vector Word 16) (n : Fin 17) : (s.setStack st n).stack = st := rfl
@[simp] theorem State.setStack_stackIndex (st : Vector Word 16) (n : Fin 17) : (s.setStack st n).stackIndex = n := rfl
@[simp] theorem State.setStack_delayTimer (st : Vector Word 16) (n : Fin 17) : (s.setStack st n).delayTimer = s.delayTimer := rfl
@[simp] theorem State.setStack_soundTimer (st : Vector Word 16) (n : Fin 17) : (s.setStack st n).soundTimer = s.soundTimer := rfl
@[simp] theorem State.setStack_memory (st : Vector Word 16) (n : Fin 17) : (s.setStack st n).memory = s.memory := rfl
@[simp] theorem State.setStack_pixels (st : Vector Word 16) (n : Fin 17) : (s.setStack st n).pixels = s.pixels := rfl
@[simp] theorem State.setStack_keys (st : Vector Word 16) (n : Fin 17) : (s.setStack st n).keys = s.keys := rfl
@[simp] theorem State.setStack_awaitingKey (st : Vector Word 16) (n : Fin 17) : (s.setStack st n).awaitingKey = s.awaitingKey := rfl
@[simp] theorem State.setStack_awaitTargetRegister (st : Vector Word 16) (n : Fin 17) : (s.setStack st n).awaitTargetRegister = s.awaitTargetRegister := rfl
@[simp] theorem State.setStack_drawPending (st : Vector Word 16) (n : Fin 17) : (s.setStack st n).drawPending = s.drawPending := rfl
@[simp] theorem State.setStack_config (st : Vector Word 16) (n : Fin 17) : (s.setStack st n).config = s.config := rfl
@[simp] theorem State.setStack_inputs (st : Vector Word 16) (n : Fin 17) : (s.setStack st n).inputs = s.inputs := rfl
@[simp] theorem State.setStack_rnd (st : Vector Word 16) (n : Fin 17) : (s.setStack st n).rnd = s.rnd := rfl
@[simp] theorem State.setStack_drawCount (st : Vector Word 16) (n : Fin 17) : (s.setStack st n).drawCount = s.drawCount := rfl
@[simp] theorem State.setStack_report (st : Vector Word 16) (n : Fin 17) : (s.setStack st n).report = s.report := rfl
@[simp] theorem State.setStack_justReset (st : Vector Word 16) (n : Fin 17) : (s.setStack st n).justReset = s.justReset := rfl

@[simp] theorem State.setDelay_v (b : Byte) : (s.setDelay b).v = s.v := rfl
@[simp] theorem State.setDelay_pc (b : Byte) : (s.setDelay b).pc = s.pc := rfl
@[simp] theorem State.setDelay_i (b : Byte) : (s.setDelay b).i = s.i := rfl
@[simp] theorem State.setDelay_stack (b : Byte) : (s.setDelay b).stack = s.stack := rfl
@[simp] theorem State.setDelay_stackIndex (b : Byte) : (s.setDelay b).stackIndex = s.stackIndex := rfl
@[simp] theorem State.setDelay_delayTimer (b : Byte) : (s.setDelay b).delayTimer = b := rfl
@[simp] theorem State.setDelay_soundTimer (b : Byte) : (s.setDelay b).soundTimer = s.soundTimer := rfl
@[simp] theorem State.setDelay_memory (b : Byte) : (s.setDelay b).memory = s.memory := rfl
@[simp] theorem State.setDelay_pixels (b : Byte) : (s.setDelay b).pixels = s.pixels := rfl
@[simp] theorem State.setDelay_keys (b : Byte) : (s.setDelay b).keys = s.keys := rfl
@[simp] theorem State.setDelay_awaitingKey (b : Byte) : (s.setDelay b).awaitingKey = s.awaitingKey := rfl
@[simp] theorem State.setDelay_awaitTargetRegister (b : Byte) : (s.setDelay b).awaitTargetRegister = s.awaitTargetRegister := rfl
@[simp] theorem State.setDelay_drawPending (b : Byte) : (s.setDelay b).drawPending = s.drawPending := rfl
@[simp] theorem State.setDelay_config (b : Byte) : (s.setDelay b).config = s.config := rfl
@[simp] theorem State.setDelay_inputs (b : Byte) : (s.setDelay b).inputs = s.inputs := rfl
@[simp] theorem State.setDelay_rnd (b : Byte) : (s.setDelay b).rnd = s.rnd := rfl
@[simp] theorem State.setDelay_drawCount (b : Byte) : (s.setDelay b).drawCount = s.drawCount := rfl
@[simp] theorem State.setDelay_report (b : Byte) : (s.setDelay b).report = s.report := rfl
@[simp] theorem State.setDelay_justReset (b : Byte) : (s.setDelay b).justReset = s.justReset := rfl

@[simp] theorem State.setSound_v (b : Byte) : (s.setSound b).v = s.v := rfl
@[simp] theorem State.setSound_pc (b : Byte) : (s.setSound b).pc = s.pc := rfl
@[simp] theorem State.setSound_i (b : Byte) : (s.setSound b).i = s.i := rfl
@[simp] theorem State.setSound_stack (b : Byte) : (s.setSound b).stack = s.stack := rfl
@[simp] theorem State.setSound_stackIndex (b : Byte) : (s.setSound b).stackIndex = s.stackIndex := rfl
@[simp] theorem State.setSound_delayTimer (b : Byte) : (s.setSound b).delayTimer = s.delayTimer := rfl
@[simp] theorem State.setSound_soundTimer (b : Byte) : (s.setSound b).soundTimer = b := rfl
@[simp] theorem State.setSound_memory (b : Byte) : (s.setSound b).memory = s.memory := rfl
@[simp] theorem State.setSound_pixels (b : Byte) : (s.setSound b).pixels = s.pixels := rfl
@[simp] theorem State.setSound_keys (b : Byte) : (s.setSound b).keys = s.keys := rfl
@[simp] theorem State.setSound_awaitingKey (b : Byte) : (s.setSound b).awaitingKey = s.awaitingKey := rfl
@[simp] theorem State.setSound_awaitTargetRegister (b : Byte) : (s.setSound b).awaitTargetRegister = s.awaitTargetRegister := rfl
@[simp] theorem State.setSound_drawPending (b : Byte) : (s.setSound b).drawPending = s.drawPending := rfl
@[simp] theorem State.setSound_config (b : Byte) : (s.setSound b).config = s.config := rfl
@[simp] theorem State.setSound_inputs (b : Byte) : (s.setSound b).inputs = s.inputs := rfl
@[simp] theorem State.setSound_rnd (b : Byte) : (s.setSound b).rnd = s.rnd := rfl
@[simp] theorem State.setSound_drawCount (b : Byte) : (s.setSound b).drawCount = s.drawCount := rfl
@[simp] theorem State.setSound_report (b : Byte) : (s.setSound b).report = s.report := rfl
@[simp] theorem State.setSound_justReset (b : Byte) : (s.setSound b).justReset = s.justReset := rfl

@[simp] theorem State.setMemory_v (m : Memory) : (s.setMemory m).v = s.v := rfl
@[simp] theorem State.setMemory_pc (m : Memory) : (s.setMemory m).pc = s.pc := rfl
@[simp] theorem State.setMemory_i (m : Memory) : (s.setMemory m).i = s.i := rfl
@[simp] theorem State.setMemory_stack (m : Memory) : (s.setMemory m).stack = s.stack := rfl
@[simp] theorem State.setMemory_stackIndex (m : Memory) : (s.setMemory m).stackIndex = s.stackIndex := rfl
@[simp] theorem State.setMemory_delayTimer (m : Memory) : (s.setMemory m).delayTimer = s.delayTimer := rfl
@[simp] theorem State.setMemory_soundTimer (m : Memory) : (s.setMemory m).soundTimer = s.soundTimer := rfl
@[simp] theorem State.setMemory_memory (m : Memory) : (s.setMemory m).memory = m := rfl
@[simp] theorem State.setMemory_pixels (m : Memory) : (s.setMemory m).pixels = s.pixels := rfl
@[simp] theorem State.setMemory_keys (m : Memory) : (s.setMemory m).keys = s.keys := rfl
@[simp] theorem State.setMemory_awaitingKey (m : Memory) : (s.setMemory m).awaitingKey = s.awaitingKey := rfl
@[simp] theorem State.setMemory_awaitTargetRegister (m : Memory) : (s.setMemory m).awaitTargetRegister = s.awaitTargetRegister := rfl
@[simp] theorem State.setMemory_drawPending (m : Memory) : (s.setMemory m).drawPending = s.drawPending := rfl
@[simp] theorem State.setMemory_config (m : Memory) : (s.setMemory m).config = s.config := rfl
@[simp] theorem State.setMemory_inputs (m : Memory) : (s.setMemory m).inputs = s.inputs := rfl
@[simp] theorem State.setMemory_rnd (m : Memory) : (s.setMemory m).rnd = s.rnd := rfl
@[simp] theorem State.setMemory_drawCount (m : Memory) : (s.setMemory m).drawCount = s.drawCount := rfl
@[simp] theorem State.setMemory_report (m : Memory) : (s.setMemory m).report = s.report := rfl
@[simp] theorem State.setMemory_justReset (m : Memory) : (s.setMemory m).justReset = s.justReset := rfl

@[simp] theorem State.setPixels_v (p : Screen) : (s.setPixels p).v = s.v := rfl
@[simp] theorem State.setPixels_pc (p : Screen) : (s.setPixels p).pc = s.pc := rfl
@[simp] theorem State.setPixels_i (p : Screen) : (s.setPixels p).i = s.i := rfl
@[simp] theorem State.setPixels_stack (p : Screen) : (s.setPixels p).stack = s.stack := rfl
@[simp] theorem State.setPixels_stackIndex (p : Screen) : (s.setPixels p).stackIndex = s.stackIndex := rfl
@[simp] theorem State.setPixels_delayTimer (p : Screen) : (s.setPixels p).delayTimer = s.delayTimer := rfl
@[simp] theorem State.setPixels_soundTimer (p : Screen) : (s.setPixels p).soundTimer = s.soundTimer := rfl
@[simp] theorem State.setPixels_memory (p : Screen) : (s.setPixels p).memory = s.memory := rfl
@[simp] theorem State.setPixels_pixels (p : Screen) : (s.setPixels p).pixels = p := rfl
@[simp] theorem State.setPixels_keys (p : Screen) : (s.setPixels p).keys = s.keys := rfl
@[simp] theorem State.setPixels_awaitingKey (p : Screen) : (s.setPixels p).awaitingKey = s.awaitingKey := rfl
@[simp] theorem State.setPixels_awaitTargetRegister (p : Screen) : (s.setPixels p).awaitTargetRegister = s.awaitTargetRegister := rfl
@[simp] theorem State.setPixels_drawPending (p : Screen) : (s.setPixels p).drawPending = true := rfl
@[simp] theorem State.setPixels_config (p : Screen) : (s.setPixels p).config = s.config := rfl
@[simp] theorem State.setPixels_inputs (p : Screen) : (s.setPixels p).inputs = s.inputs := rfl
@[simp] theorem State.setPixels_rnd (p : Screen) : (s.setPixels p).rnd = s.rnd := rfl
@[simp] theorem State.setPixels_drawCount (p : Screen) : (s.setPixels p).drawCount = s.drawCount := rfl
@[simp] theorem State.setPixels_report (p : Screen) : (s.setPixels p).report = s.report := rfl
@[simp] theorem State.setPixels_justReset (p : Screen) : (s.setPixels p).justReset = s.justReset := rfl

@[simp] theorem State.setDrawPending_v (b : Bool) : (s.setDrawPending b).v = s.v := rfl
@[simp] theorem State.setDrawPending_pc (b : Bool) : (s.setDrawPending b).pc = s.pc := rfl
@[simp] theorem State.setDrawPending_i (b : Bool) : (s.setDrawPending b).i = s.i := rfl
@[simp] theorem State.setDrawPending_stack (b : Bool) : (s.setDrawPending b).stack = s.stack := rfl
@[simp] theorem State.setDrawPending_stackIndex (b : Bool) : (s.setDrawPending b).stackIndex = s.stackIndex := rfl
@[simp] theorem State.setDrawPending_delayTimer (b : Bool) : (s.setDrawPending b).delayTimer = s.delayTimer := rfl
@[simp] theorem State.setDrawPending_soundTimer (b : Bool) : (s.setDrawPending b).soundTimer = s.soundTimer := rfl
@[simp] theorem State.setDrawPending_memory (b : Bool) : (s.setDrawPending b).memory = s.memory := rfl
@[simp] theorem State.setDrawPending_pixels (b : Bool) : (s.setDrawPending b).pixels = s.pixels := rfl
@[simp] theorem State.setDrawPending_keys (b : Bool) : (s.setDrawPending b).keys = s.keys := rfl
@[simp] theorem State.setDrawPending_awaitingKey (b : Bool) : (s.setDrawPending b).awaitingKey = s.awaitingKey := rfl
@[simp] theorem State.setDrawPending_awaitTargetRegister (b : Bool) : (s.setDrawPending b).awaitTargetRegister = s.awaitTargetRegister := rfl
@[simp] theorem State.setDrawPending_drawPending (b : Bool) : (s.setDrawPending b).drawPending = b := rfl
@[simp] theorem State.setDrawPending_config (b : Bool) : (s.setDrawPending b).config = s.config := rfl
@[simp] theorem State.setDrawPending_inputs (b : Bool) : (s.setDrawPending b).inputs = s.inputs := rfl
@[simp] theorem State.setDrawPending_rnd (b : Bool) : (s.setDrawPending b).rnd = s.rnd := rfl
@[simp] theorem State.setDrawPending_drawCount (b : Bool) : (s.setDrawPending b).drawCount = s.drawCount := rfl
@[simp] theorem State.setDrawPending_report (b : Bool) : (s.setDrawPending b).report = s.report := rfl
@[simp] theorem State.setDrawPending_justReset (b : Bool) : (s.setDrawPending b).justReset = s.justReset := rfl

@[simp] theorem State.setKeySample_v (ks : Vector Bool 16) : (s.setKeySample ks).v = s.v := rfl
@[simp] theorem State.setKeySample_pc (ks : Vector Bool 16) : (s.setKeySample ks).pc = s.pc := rfl
@[simp] theorem State.setKeySample_i (ks : Vector Bool 16) : (s.setKeySample ks).i = s.i := rfl
@[simp] theorem State.setKeySample_stack (ks : Vector Bool 16) : (s.setKeySample ks).stack = s.stack := rfl
@[simp] theorem State.setKeySample_stackIndex (ks : Vector Bool 16) : (s.setKeySample ks).stackIndex = s.stackIndex := rfl
@[simp] theorem State.setKeySample_delayTimer (ks : Vector Bool 16) : (s.setKeySample ks).delayTimer = s.delayTimer := rfl
@[simp] theorem State.setKeySample_soundTimer (ks : Vector Bool 16) : (s.setKeySample ks).soundTimer = s.soundTimer := rfl
@[simp] theorem State.setKeySample_memory (ks : Vector Bool 16) : (s.setKeySample ks).memory = s.memory := rfl
@[simp] theorem State.setKeySample_pixels (ks : Vector Bool 16) : (s.setKeySample ks).pixels = s.pixels := rfl
@[simp] theorem State.setKeySample_keys (ks : Vector Bool 16) : (s.setKeySample ks).keys = ks := rfl
@[simp] theorem State.setKeySample_awaitingKey (ks : Vector Bool 16) : (s.setKeySample ks).awaitingKey = s.awaitingKey := rfl
@[simp] theorem State.setKeySample_awaitTargetRegister (ks : Vector Bool 16) : (s.setKeySample ks).awaitTargetRegister = s.awaitTargetRegister := rfl
@[simp] theorem State.setKeySample_drawPending (ks : Vector Bool 16) : (s.setKeySample ks).drawPending = s.drawPending := rfl
@[simp] theorem State.setKeySample_config (ks : Vector Bool 16) : (s.setKeySample ks).config = s.config := rfl
@[simp] theorem State.setKeySample_inputs (ks : Vector Bool 16) : (s.setKeySample ks).inputs = s.inputs := rfl
@[simp] theorem State.setKeySample_rnd (ks : Vector Bool 16) : (s.setKeySample ks).rnd = s.rnd := rfl
@[simp] theorem State.setKeySample_drawCount (ks : Vector Bool 16) : (s.setKeySample ks).drawCount = s.drawCount := rfl
@[simp] theorem State.setKeySample_report (ks : Vector Bool 16) : (s.setKeySample ks).report = s.report := rfl
@[simp] theorem State.setKeySample_justReset (ks : Vector Bool 16) : (s.setKeySample ks).justReset = s.justReset := rfl

@[simp] theorem State.awaitKey_v (x : Reg) : (s.awaitKey x).v = s.v := rfl
@[simp] theorem State.awaitKey_pc (x : Reg) : (s.awaitKey x).pc = s.pc := rfl
@[simp] theorem State.awaitKey_i (x : Reg) : (s.awaitKey x).i = s.i := rfl
@[simp] theorem State.awaitKey_stack (x : Reg) : (s.awaitKey x).stack = s.stack := rfl
@[simp] theorem State.awaitKey_stackIndex (x : Reg) : (s.awaitKey x).stackIndex = s.stackIndex := rfl
@[simp] theorem State.awaitKey_delayTimer (x : Reg) : (s.awaitKey x).delayTimer = s.delayTimer := rfl
@[simp] theorem State.awaitKey_soundTimer (x : Reg) : (s.awaitKey x).soundTimer = s.soundTimer := rfl
@[simp] theorem State.awaitKey_memory (x : Reg) : (s.awaitKey x).memory = s.memory := rfl
@[simp] theorem State.awaitKey_pixels (x : Reg) : (s.awaitKey x).pixels = s.pixels := rfl
@[simp] theorem State.awaitKey_keys (x : Reg) : (s.awaitKey x).keys = s.keys := rfl
@[simp] theorem State.awaitKey_awaitingKey (x : Reg) : (s.awaitKey x).awaitingKey = true := rfl
@[simp] theorem State.awaitKey_awaitTargetRegister (x : Reg) : (s.awaitKey x).awaitTargetRegister = x := rfl
@[simp] theorem State.awaitKey_drawPending (x : Reg) : (s.awaitKey x).drawPending = s.drawPending := rfl
@[simp] theorem State.awaitKey_config (x : Reg) : (s.awaitKey x).config = s.config := rfl
@[simp] theorem State.awaitKey_inputs (x : Reg) : (s.awaitKey x).inputs = s.inputs := rfl
@[simp] theorem State.awaitKey_rnd (x : Reg) : (s.awaitKey x).rnd = s.rnd := rfl
@[simp] theorem State.awaitKey_drawCount (x : Reg) : (s.awaitKey x).drawCount = s.drawCount := rfl
@[simp] theorem State.awaitKey_report (x : Reg) : (s.awaitKey x).report = s.report := rfl
@[simp] theorem State.awaitKey_justReset (x : Reg) : (s.awaitKey x).justReset = s.justReset := rfl

@[simp] theorem State.resume_v : s.resume.v = s.v := rfl
@[simp] theorem State.resume_pc : s.resume.pc = s.pc := rfl
@[simp] theorem State.resume_i : s.resume.i = s.i := rfl
@[simp] theorem State.resume_stack : s.resume.stack = s.stack := rfl
@[simp] theorem State.resume_stackIndex : s.resume.stackIndex = s.stackIndex := rfl
@[simp] theorem State.resume_delayTimer : s.resume.delayTimer = s.delayTimer := rfl
@[simp] theorem State.resume_soundTimer : s.resume.soundTimer = s.soundTimer := rfl
@[simp] theorem State.resume_memory : s.resume.memory = s.memory := rfl
@[simp] theorem State.resume_pixels : s.resume.pixels = s.pixels := rfl
@[simp] theorem State.resume_keys : s.resume.keys = s.keys := rfl
@[simp] theorem State.resume_awaitingKey : s.resume.awaitingKey = false := rfl
@[simp] theorem State.resume_awaitTargetRegister : s.resume.awaitTargetRegister = s.awaitTargetRegister := rfl
@[simp] theorem State.resume_drawPending : s.resume.drawPending = s.drawPending := rfl
@[simp] theorem State.resume_config : s.resume.config = s.config := rfl
@[simp] theorem State.resume_inputs : s.resume.inputs = s.inputs := rfl
@[simp] theorem State.resume_rnd : s.resume.rnd = s.rnd := rfl
@[simp] theorem State.resume_drawCount : s.resume.drawCount = s.drawCount := rfl
@[simp] theorem State.resume_report : s.resume.report = s.report := rfl
@[simp] theorem State.resume_justReset : s.resume.justReset = s.justReset := rfl

@[simp] theorem State.setReport_v (r : Report) : (s.setReport r).v = s.v := rfl
@[simp] theorem State.setReport_pc (r : Report) : (s.setReport r).pc = s.pc := rfl
@[simp] theorem State.setReport_i (r : Report) : (s.setReport r).i = s.i := rfl
@[simp] theorem State.setReport_stack (r : Report) : (s.setReport r).stack = s.stack := rfl
@[simp] theorem State.setReport_stackIndex (r : Report) : (s.setReport r).stackIndex = s.stackIndex := rfl
@[simp] theorem State.setReport_delayTimer (r : Report) : (s.setReport r).delayTimer = s.delayTimer := rfl
@[simp] theorem State.setReport_soundTimer (r : Report) : (s.setReport r).soundTimer = s.soundTimer := rfl
@[simp] theorem State.setReport_memory (r : Report) : (s.setReport r).memory = s.memory := rfl
@[simp] theorem State.setReport_pixels (r : Report) : (s.setReport r).pixels = s.pixels := rfl
@[simp] theorem State.setReport_keys (r : Report) : (s.setReport r).keys = s.keys := rfl
@[simp] theorem State.setReport_awaitingKey (r : Report) : (s.setReport r).awaitingKey = s.awaitingKey := rfl
@[simp] theorem State.setReport_awaitTargetRegister (r : Report) : (s.setReport r).awaitTargetRegister = s.awaitTargetRegister := rfl
@[simp] theorem State.setReport_drawPending (r : Report) : (s.setReport r).drawPending = s.drawPending := rfl
@[simp] theorem State.setReport_config (r : Report) : (s.setReport r).config = s.config := rfl
@[simp] theorem State.setReport_inputs (r : Report) : (s.setReport r).inputs = s.inputs := rfl
@[simp] theorem State.setReport_rnd (r : Report) : (s.setReport r).rnd = s.rnd := rfl
@[simp] theorem State.setReport_drawCount (r : Report) : (s.setReport r).drawCount = s.drawCount := rfl
@[simp] theorem State.setReport_report (r : Report) : (s.setReport r).report = r := rfl
@[simp] theorem State.setReport_justReset (r : Report) : (s.setReport r).justReset = s.justReset := rfl

@[simp] theorem State.setInputs_v (ops : List HostOp) : (s.setInputs ops).v = s.v := rfl
@[simp] theorem State.setInputs_pc (ops : List HostOp) : (s.setInputs ops).pc = s.pc := rfl
@[simp] theorem State.setInputs_i (ops : List HostOp) : (s.setInputs ops).i = s.i := rfl
@[simp] theorem State.setInputs_stack (ops : List HostOp) : (s.setInputs ops).stack = s.stack := rfl
@[simp] theorem State.setInputs_stackIndex (ops : List HostOp) : (s.setInputs ops).stackIndex = s.stackIndex := rfl
@[simp] theorem State.setInputs_delayTimer (ops : List HostOp) : (s.setInputs ops).delayTimer = s.delayTimer := rfl
@[simp] theorem State.setInputs_soundTimer (ops : List HostOp) : (s.setInputs ops).soundTimer = s.soundTimer := rfl
@[simp] theorem State.setInputs_memory (ops : List HostOp) : (s.setInputs ops).memory = s.memory := rfl
@[simp] theorem State.setInputs_pixels (ops : List HostOp) : (s.setInputs ops).pixels = s.pixels := rfl
@[simp] theorem State.setInputs_keys (ops : List HostOp) : (s.setInputs ops).keys = s.keys := rfl
@[simp] theorem State.setInputs_awaitingKey (ops : List HostOp) : (s.setInputs ops).awaitingKey = s.awaitingKey := rfl
@[simp] theorem State.setInputs_awaitTargetRegister (ops : List HostOp) : (s.setInputs ops).awaitTargetRegister = s.awaitTargetRegister := rfl
@[simp] theorem State.setInputs_drawPending (ops : List HostOp) : (s.setInputs ops).drawPending = s.drawPending := rfl
@[simp] theorem State.setInputs_config (ops : List HostOp) : (s.setInputs ops).config = s.config := rfl
@[simp] theorem State.setInputs_inputs (ops : List HostOp) : (s.setInputs ops).inputs = ops := rfl
@[simp] theorem State.setInputs_rnd (ops : List HostOp) : (s.setInputs ops).rnd = s.rnd := rfl
@[simp] theorem State.setInputs_drawCount (ops : List HostOp) : (s.setInputs ops).drawCount = s.drawCount := rfl
@[simp] theorem State.setInputs_report (ops : List HostOp) : (s.setInputs ops).report = s.report := rfl
@[simp] theorem State.setInputs_justReset (ops : List HostOp) : (s.setInputs ops).justReset = s.justReset := rfl

@[simp] theorem State.setRnd_v (r : Option Byte) : (s.setRnd r).v = s.v := rfl
@[simp] theorem State.setRnd_pc (r : Option Byte) : (s.setRnd r).pc = s.pc := rfl
@[simp] theorem State.setRnd_i (r : Option Byte) : (s.setRnd r).i = s.i := rfl
@[simp] theorem State.setRnd_stack (r : Option Byte) : (s.setRnd r).stack = s.stack := rfl
@[simp] theorem State.setRnd_stackIndex (r : Option Byte) : (s.setRnd r).stackIndex = s.stackIndex := rfl
@[simp] theorem State.setRnd_delayTimer (r : Option Byte) : (s.setRnd r).delayTimer = s.delayTimer := rfl
@[simp] theorem State.setRnd_soundTimer (r : Option Byte) : (s.setRnd r).soundTimer = s.soundTimer := rfl
@[simp] theorem State.setRnd_memory (r : Option Byte) : (s.setRnd r).memory = s.memory := rfl
@[simp] theorem State.setRnd_pixels (r : Option Byte) : (s.setRnd r).pixels = s.pixels := rfl
@[simp] theorem State.setRnd_keys (r : Option Byte) : (s.setRnd r).keys = s.keys := rfl
@[simp] theorem State.setRnd_awaitingKey (r : Option Byte) : (s.setRnd r).awaitingKey = s.awaitingKey := rfl
@[simp] theorem State.setRnd_awaitTargetRegister (r : Option Byte) : (s.setRnd r).awaitTargetRegister = s.awaitTargetRegister := rfl
@[simp] theorem State.setRnd_drawPending (r : Option Byte) : (s.setRnd r).drawPending = s.drawPending := rfl
@[simp] theorem State.setRnd_config (r : Option Byte) : (s.setRnd r).config = s.config := rfl
@[simp] theorem State.setRnd_inputs (r : Option Byte) : (s.setRnd r).inputs = s.inputs := rfl
@[simp] theorem State.setRnd_rnd (r : Option Byte) : (s.setRnd r).rnd = r := rfl
@[simp] theorem State.setRnd_drawCount (r : Option Byte) : (s.setRnd r).drawCount = s.drawCount := rfl
@[simp] theorem State.setRnd_report (r : Option Byte) : (s.setRnd r).report = s.report := rfl
@[simp] theorem State.setRnd_justReset (r : Option Byte) : (s.setRnd r).justReset = s.justReset := rfl

@[simp] theorem State.countDraw_v : s.countDraw.v = s.v := rfl
@[simp] theorem State.countDraw_pc : s.countDraw.pc = s.pc := rfl
@[simp] theorem State.countDraw_i : s.countDraw.i = s.i := rfl
@[simp] theorem State.countDraw_stack : s.countDraw.stack = s.stack := rfl
@[simp] theorem State.countDraw_stackIndex : s.countDraw.stackIndex = s.stackIndex := rfl
@[simp] theorem State.countDraw_delayTimer : s.countDraw.delayTimer = s.delayTimer := rfl
@[simp] theorem State.countDraw_soundTimer : s.countDraw.soundTimer = s.soundTimer := rfl
@[simp] theorem State.countDraw_memory : s.countDraw.memory = s.memory := rfl
@[simp] theorem State.countDraw_pixels : s.countDraw.pixels = s.pixels := rfl
@[simp] theorem State.countDraw_keys : s.countDraw.keys = s.keys := rfl
@[simp] theorem State.countDraw_awaitingKey : s.countDraw.awaitingKey = s.awaitingKey := rfl
@[simp] theorem State.countDraw_awaitTargetRegister : s.countDraw.awaitTargetRegister = s.awaitTargetRegister := rfl
@[simp] theorem State.countDraw_drawPending : s.countDraw.drawPending = s.drawPending := rfl
@[simp] theorem State.countDraw_config : s.countDraw.config = s.config := rfl
@[simp] theorem State.countDraw_inputs : s.countDraw.inputs = s.inputs := rfl
@[simp] theorem State.countDraw_rnd : s.countDraw.rnd = s.rnd := rfl
@[simp] theorem State.countDraw_drawCount : s.countDraw.drawCount = s.drawCount + 1 := rfl
@[simp] theorem State.countDraw_report : s.countDraw.report = s.report := rfl
@[simp] theorem State.countDraw_justReset : s.countDraw.justReset = s.justReset := rfl

@[simp] theorem State.leaveReset_v : s.leaveReset.v = s.v := rfl
@[simp] theorem State.leaveReset_pc : s.leaveReset.pc = s.pc := rfl
@[simp] theorem State.leaveReset_i : s.leaveReset.i = s.i := rfl
@[simp] theorem State.leaveReset_stack : s.leaveReset.stack = s.stack := rfl
@[simp] theorem State.leaveReset_stackIndex : s.leaveReset.stackIndex = s.stackIndex := rfl
@[simp] theorem State.leaveReset_delayTimer : s.leaveReset.delayTimer = s.delayTimer := rfl
@[simp] theorem State.leaveReset_soundTimer : s.leaveReset.soundTimer = s.soundTimer := rfl
@[simp] theorem State.leaveReset_memory : s.leaveReset.memory = s.memory := rfl
@[simp] theorem State.leaveReset_pixels : s.leaveReset.pixels = s.pixels := rfl
@[simp] theorem State.leaveReset_keys : s.leaveReset.keys = s.keys := rfl
@[simp] theorem State.leaveReset_awaitingKey : s.leaveReset.awaitingKey = s.awaitingKey := rfl
@[simp] theorem State.leaveReset_awaitTargetRegister : s.leaveReset.awaitTargetRegister = s.awaitTargetRegister := rfl
@[simp] theorem State.leaveReset_drawPending : s.leaveReset.drawPending = s.drawPending := rfl
@[simp] theorem State.leaveReset_config : s.leaveReset.config = s.config := rfl
@[simp] theorem State.leaveReset_inputs : s.leaveReset.inputs = s.inputs := rfl
@[simp] theorem State.leaveReset_rnd : s.leaveReset.rnd = s.rnd := rfl
@[simp] theorem State.leaveReset_drawCount : s.leaveReset.drawCount = s.drawCount := rfl
@[simp] theorem State.leaveReset_report : s.leaveReset.report = s.report := rfl
@[simp] theorem State.leaveReset_justReset : s.leaveReset.justReset = false := rfl

end Sys2Proof.Machine
end

