-- ==== Sys2Proof/Laws/Registers.lean ====
section
/-! SUPPORT. What a register reads after each update, and the values of the flag computations as numbers. -/

namespace Sys2Proof.Machine

variable (s : State)

@[simp] theorem State.setPc_reg (w : Word) (j : Reg) : (s.setPc w).reg j = s.reg j := rfl
@[simp] theorem State.setI_reg (w : Word) (j : Reg) : (s.setI w).reg j = s.reg j := rfl
@[simp] theorem State.setStack_reg (st : Vector Word 16) (n : Fin 17) (j : Reg) : (s.setStack st n).reg j = s.reg j := rfl
@[simp] theorem State.setDelay_reg (b : Byte) (j : Reg) : (s.setDelay b).reg j = s.reg j := rfl
@[simp] theorem State.setSound_reg (b : Byte) (j : Reg) : (s.setSound b).reg j = s.reg j := rfl
@[simp] theorem State.setMemory_reg (m : Memory) (j : Reg) : (s.setMemory m).reg j = s.reg j := rfl
@[simp] theorem State.setPixels_reg (p : Screen) (j : Reg) : (s.setPixels p).reg j = s.reg j := rfl
@[simp] theorem State.setDrawPending_reg (b : Bool) (j : Reg) : (s.setDrawPending b).reg j = s.reg j := rfl
@[simp] theorem State.setKeySample_reg (ks : Vector Bool 16) (j : Reg) : (s.setKeySample ks).reg j = s.reg j := rfl
@[simp] theorem State.awaitKey_reg (x : Reg) (j : Reg) : (s.awaitKey x).reg j = s.reg j := rfl
@[simp] theorem State.resume_reg (j : Reg) : s.resume.reg j = s.reg j := rfl
@[simp] theorem State.setReport_reg (r : Report) (j : Reg) : (s.setReport r).reg j = s.reg j := rfl
@[simp] theorem State.setInputs_reg (ops : List HostOp) (j : Reg) : (s.setInputs ops).reg j = s.reg j := rfl
@[simp] theorem State.setRnd_reg (r : Option Byte) (j : Reg) : (s.setRnd r).reg j = s.reg j := rfl
@[simp] theorem State.leaveReset_reg (j : Reg) : s.leaveReset.reg j = s.reg j := rfl
@[simp] theorem State.countDraw_reg (j : Reg) : s.countDraw.reg j = s.reg j := rfl

@[simp] theorem State.setRegs_reg (w : Vector Byte 16) (j : Reg) : (s.setRegs w).reg j = w[j] := rfl

theorem State.setReg_reg (k j : Reg) (b : Byte) : (s.setReg k b).reg j = if j = k then b else s.reg j := by
  simp only [State.reg, State.setReg, Fin.getElem_fin, Vector.getElem_set, Fin.ext_iff, eq_comm]

@[simp] theorem State.setReg_reg_same (k : Reg) (b : Byte) : (s.setReg k b).reg k = b := by
  simp [State.setReg_reg]

theorem State.setReg_reg_other {k j : Reg} (b : Byte) (h : j ≠ k) : (s.setReg k b).reg j = s.reg j := by
  simp [State.setReg_reg, h]

/-- Everything a flag-writing instruction does to the registers: VF holds the flag, also when it was the destination (R21). -/
theorem State.setRegFlag_reg (x j : Reg) (b : Byte) (f : Bool) :
    (s.setRegFlag x b f).reg j = if j = vf then flagByte f else if j = x then b else s.reg j := by
  simp only [State.setRegFlag, State.setReg_reg]

/-- Bytes written to consecutive registers: register j holds byte j - k where there is one. -/
theorem writeRegs_getElem (bs : List Byte) (v : Vector Byte 16) (k j : Nat) (hj : j < 16) :
    (writeRegs v k bs)[j] = if k ≤ j ∧ j < k + bs.length then bs.getD (j - k) 0 else v[j] := by
  induction bs generalizing v k with
  | nil => simp [writeRegs]
  | cons b bs ih =>
    rw [writeRegs, ih, Vector.getElem_setIfInBounds]
    rcases Nat.lt_trichotomy j k with h | h | h
    · rw [if_neg (by omega), if_neg (by omega), if_neg (by omega)]
    · subst h; simp
    · have e : j - k = (j - (k + 1)) + 1 := by omega
      simp only [List.length_cons, e, List.getD_cons_succ, show k ≠ j by omega, if_false]
      congr 1
      simp only [eq_iff_iff]; omega

/-! The flag computations and results of R166 to R170, as numbers. -/

theorem flagByte_toNat (f : Bool) : (flagByte f).toNat = if f then 1 else 0 := by cases f <;> rfl

theorem sumByte_toNat (a b : Byte) : (sumByte a b).toNat = (a.toNat + b.toNat) % 256 := by
  simp [sumByte]

theorem diffByte_toNat (a b : Byte) :
    (diffByte a b).toNat = if b.toNat ≤ a.toNat then a.toNat - b.toNat else a.toNat + 256 - b.toNat := by
  have := a.isLt; have := b.isLt
  simp only [diffByte, BitVec.toNat_ofNat]
  split <;> omega

theorem halfByte_toNat (a : Byte) : (halfByte a).toNat = a.toNat / 2 := by
  have := a.isLt
  simp only [halfByte, BitVec.toNat_ofNat]
  omega

theorem doubleByte_toNat (a : Byte) : (doubleByte a).toNat = a.toNat * 2 % 256 := by
  simp [doubleByte]

end Sys2Proof.Machine
end

