-- ==== Sys2Proof/Laws/Ops.lean ====
section
/-! SUPPORT. One lemma per shared operation, saying once everything it can do: raising an error, the range check, skips, push and pop, the
collision flag, `SetKeys`. -/

namespace Sys2Proof.Machine

variable (s : State)

/-- Raising an error always answers a next state: `pc` back at the instruction, and the report. -/
theorem raise_eq (f : Fault) : raise f s = .next ((s.setPc (s.pc - 2)).setReport (.err f)) := rfl

/-- Seen from the instruction's address a, where `pc = a + 2`. -/
theorem instrAddr_of_pc {s : State} {a : Word} (h : s.pc = a + 2) : s.instrAddr = a := by
  rw [State.instrAddr, h, BitVec.add_sub_cancel]

@[simp] theorem guardError_none (k : Result) : guardError none s k = k := rfl

@[simp] theorem guardError_some (f : Fault) (k : Result) : guardError (some f) s k = raise f s := rfl

/-- The range check passes iff no byte or only bytes inside memory are accessed. -/
theorem rangeError_none {n : Nat} (h : n = 0 ∨ s.i.toNat + n ≤ 0x1000) : s.rangeError n = none := by
  rw [State.rangeError, if_pos h]

/-- Else it reports the first address above 0xFFF. -/
theorem rangeError_some {n : Nat} (h : 0 < n) (h' : 0x1000 < s.i.toNat + n) :
    s.rangeError n = some (.memoryOutOfRange s.instrAddr (max s.i.toNat 0x1000)) := by
  rw [State.rangeError, if_neg (by simp only [Config.memSize]; omega)]

/-- The three things a guarded instruction can be: completed, or rejected by the range check. -/
theorem guardError_cases (n : Nat) (k : Result) :
    (guardError (s.rangeError n) s k = k ∧ (n = 0 ∨ s.i.toNat + n ≤ 0x1000)) ∨
    (guardError (s.rangeError n) s k = raise (.memoryOutOfRange s.instrAddr (max s.i.toNat 0x1000)) s ∧
      0 < n ∧ 0x1000 < s.i.toNat + n) := by
  by_cases h : n = 0 ∨ s.i.toNat + n ≤ 0x1000
  · exact .inl ⟨by rw [rangeError_none s h]; rfl, h⟩
  · exact .inr ⟨by rw [rangeError_some s (by omega) (by omega)]; rfl, by omega, by omega⟩

theorem skipIf_eq (c : Bool) : s.skipIf c = s.setPc (if c then s.pc + 2 else s.pc) := by
  cases c <;> rfl

/-- A push on a stack that is not full. -/
theorem push_some {s : State} (w : Word) (h : s.stackIndex.val < 16) :
    s.push w = some (s.setStack (s.stack.set s.stackIndex.val w h) ⟨s.stackIndex.val + 1, by omega⟩) := by
  rw [State.push, dif_pos h]

theorem push_none {s : State} (w : Word) (h : ¬ s.stackIndex.val < 16) : s.push w = none := by
  rw [State.push, dif_neg h]

/-- A pop of a stack that is not empty; the popped entry stays. -/
theorem pop_some {s : State} (h : 0 < s.stackIndex.val) :
    s.pop = some (s.stack[s.stackIndex.val - 1]'(by omega), s.setStack s.stack ⟨s.stackIndex.val - 1, by omega⟩) := by
  rw [State.pop, dif_pos h]

theorem pop_none {s : State} (h : ¬ 0 < s.stackIndex.val) : s.pop = none := by
  rw [State.pop, dif_neg h]

/-- The collision flag writes VF or nothing. -/
theorem setCollision_cases (s : State) (c : Bool) :
    (s.config.collisionFlag = true ∧ s.setCollision c = s.setReg vf (flagByte c)) ∨
    (s.config.collisionFlag = false ∧ s.setCollision c = s) := by
  unfold State.setCollision
  cases s.config.collisionFlag <;> simp

theorem tickTimer_toNat (b : Byte) : (tickTimer b).toNat = b.toNat - 1 := by
  unfold tickTimer
  split
  · rename_i h; subst h; rfl
  · rename_i h
    have : b.toNat ≠ 0 := fun e => h (BitVec.eq_of_toNat_eq e)
    have := b.isLt
    rw [BitVec.toNat_sub, show (1 : Byte).toNat = 1 from rfl]
    omega

/-- `SetKeys` stores the sample; awaiting a key it also resolves the wait with the first newly pressed key, if there is one. -/
theorem setKeys_cases (new : Vector Bool 16) :
    (∃ k ks, s.awaitingKey = true ∧ s.newlyPressed new = k :: ks ∧ s.setKeys new = (s.resolveWait k).setKeySample new) ∨
    ((s.awaitingKey = false ∨ s.newlyPressed new = []) ∧ s.setKeys new = s.setKeySample new) := by
  unfold State.setKeys
  cases ha : s.awaitingKey <;> cases hn : s.newlyPressed new <;> simp

/-- A key is newly pressed iff it is pressed in the new sample and was not in the previous one. -/
theorem mem_newlyPressed (new : Vector Bool 16) (k : Fin 16) :
    k ∈ s.newlyPressed new ↔ new[k] = true ∧ s.keys[k] = false := by
  simp [State.newlyPressed]

/-- The newly pressed keys are listed in rising order. -/
theorem newlyPressed_sorted (new : Vector Bool 16) : (s.newlyPressed new).Pairwise (· < ·) := by
  refine List.Pairwise.filter _ ?_
  decide

end Sys2Proof.Machine
end

