-- ==== Sys2Proof/Laws/Engine.lean ====
section
/-! SUPPORT. The Step cycle's four outcomes, one lemma each and one for all of them; the step as the next host operation; the instructions that
can be rejected, in both outcomes; and what no instruction changes. -/

namespace Sys2Proof.Machine

/-! The Step cycle. -/

theorem engineStep_idle {s : State} (ha : s.awaitingKey = true) : engineStep s = .next (s.setReport .idle) := by
  rw [engineStep, if_pos ha]

theorem engineStep_fetchError {s : State} (ha : s.awaitingKey = false) (hp : 0x0FFE < s.pc.toNat) :
    engineStep s = .next s.failFetch := by
  rw [engineStep, if_neg (by simp [ha]), if_pos hp]

theorem engineStep_unknown {s : State} {e : DecodeError} (ha : s.awaitingKey = false) (hp : s.pc.toNat ≤ 0x0FFE)
    (hd : decodeWord s.fetchWord = .error e) : engineStep s = .next (s.failDecode s.fetchWord) := by
  rw [engineStep, if_neg (by simp [ha]), if_neg (by omega), hd]

theorem engineStep_exec {s : State} {i : Instr} (ha : s.awaitingKey = false) (hp : s.pc.toNat ≤ 0x0FFE)
    (hd : decodeWord s.fetchWord = .ok i) : engineStep s = exec i s.advanced := by
  rw [engineStep, if_neg (by simp [ha]), if_neg (by omega), hd]

/-- Everything a Step can do. -/
theorem engineStep_cases (s : State) :
    (s.awaitingKey = true ∧ engineStep s = .next (s.setReport .idle)) ∨
    (s.awaitingKey = false ∧ 0x0FFE < s.pc.toNat ∧ engineStep s = .next s.failFetch) ∨
    (s.awaitingKey = false ∧ s.pc.toNat ≤ 0x0FFE ∧ (∃ e, decodeWord s.fetchWord = .error e) ∧
      engineStep s = .next (s.failDecode s.fetchWord)) ∨
    (s.awaitingKey = false ∧ s.pc.toNat ≤ 0x0FFE ∧ ∃ i, decodeWord s.fetchWord = .ok i ∧ engineStep s = exec i s.advanced) := by
  cases ha : s.awaitingKey
  · by_cases hp : 0x0FFE < s.pc.toNat
    · exact .inr (.inl ⟨rfl, hp, engineStep_fetchError ha hp⟩)
    · have hp' : s.pc.toNat ≤ 0x0FFE := by omega
      cases hd : decodeWord s.fetchWord with
      | error e => exact .inr (.inr (.inl ⟨rfl, hp', ⟨e, rfl⟩, engineStep_unknown ha hp' hd⟩))
      | ok i => exact .inr (.inr (.inr ⟨rfl, hp', i, rfl, engineStep_exec ha hp' hd⟩))
  · exact .inl ⟨rfl, engineStep_idle ha⟩

theorem step_nil {s : State} (h : s.inputs = []) : step s = engineStep s.leaveReset := by
  rw [step, operate, h]

theorem step_cons {s : State} {op : HostOp} {rest : List HostOp} (h : s.inputs = op :: rest) :
    step s = perform op (s.setInputs rest) := by
  rw [step, operate, h]

/-- A next state of `Step(rnd)` is one of the Step cycle with that draw, the draw then discarded. -/
theorem stepWithDraw_next {s t : State} {b : Byte} (h : stepWithDraw b s = .next t) :
    ∃ u, engineStep (s.setRnd (some b)) = .next u ∧ t = u.setRnd none := by
  unfold stepWithDraw at h
  cases he : engineStep (s.setRnd (some b)) with
  | next u => rw [he] at h; exact ⟨u, rfl, (Host.Outcome.next.inj h).symm⟩
  | fault r => rw [he] at h; exact absurd h (by simp [mapNext])
  | refused r => rw [he] at h; exact absurd h (by simp [mapNext])

/-! The instructions that can be rejected. -/

theorem exec_ret_some {s : State} (h : 0 < s.stackIndex.val) :
    exec .ret s = .next ((s.setStack s.stack ⟨s.stackIndex.val - 1, by omega⟩).setPc (s.stack[s.stackIndex.val - 1]'(by omega))) := by
  simp only [exec, execRet, pop_some h]

theorem exec_ret_none {s : State} (h : ¬ 0 < s.stackIndex.val) : exec .ret s = raise (.stackUnderflow s.instrAddr) s := by
  simp only [exec, execRet, pop_none h]

theorem exec_call_some {s : State} {nnn : Addr} (h : s.stackIndex.val < 16) :
    exec (.call nnn) s =
      .next ((s.setStack (s.stack.set s.stackIndex.val s.pc h) ⟨s.stackIndex.val + 1, by omega⟩).setPc nnn.zext16) := by
  simp only [exec, execCall, push_some _ h]

theorem exec_call_none {s : State} {nnn : Addr} (h : ¬ s.stackIndex.val < 16) :
    exec (.call nnn) s = raise (.stackOverflow s.instrAddr) s := by
  simp only [exec, execCall, push_none _ h]

/-- What no instruction changes: the parameters, the pending operations, the draw given, the keypad sample, whether
`Reset` came last. -/
structure Keeps (s t : State) : Prop where
  config : t.config = s.config
  inputs : t.inputs = s.inputs
  rnd : t.rnd = s.rnd
  keys : t.keys = s.keys
  justReset : t.justReset = s.justReset

theorem raise_keeps {f : Fault} {s t : State} (h : raise f s = .next t) : Keeps s t := by
  cases h; exact ⟨rfl, rfl, rfl, rfl, rfl⟩

theorem guard_keeps {n : Nat} {s t u : State} (hu : Keeps s u) (h : guardError (s.rangeError n) s (.next u) = .next t) :
    Keeps s t := by
  rcases guardError_cases s n (.next u) with ⟨e, -⟩ | ⟨e, -⟩
  · rw [e] at h; cases h; exact hu
  · rw [e] at h; exact raise_keeps h

theorem setCollision_keeps (s : State) (p : Screen) (c : Bool) : Keeps s ((s.setPixels p).setCollision c) := by
  rcases setCollision_cases (s.setPixels p) c with ⟨-, e⟩ | ⟨-, e⟩ <;> rw [e] <;> exact ⟨rfl, rfl, rfl, rfl, rfl⟩

theorem exec_keeps {i : Instr} {s t : State} (h : exec i s = .next t) : Keeps s t := by
  cases i
  case ret =>
    by_cases hs : 0 < s.stackIndex.val
    · rw [exec_ret_some hs] at h; cases h; exact ⟨rfl, rfl, rfl, rfl, rfl⟩
    · rw [exec_ret_none hs] at h; exact raise_keeps h
  case call nnn =>
    by_cases hs : s.stackIndex.val < 16
    · rw [exec_call_some hs] at h; cases h; exact ⟨rfl, rfl, rfl, rfl, rfl⟩
    · rw [exec_call_none hs] at h; exact raise_keeps h
  case drw x y n => exact guard_keeps (setCollision_keeps s _ _) h
  case ldB x =>
    exact guard_keeps (u := s.setMemory (s.memory.writeBytes s.i.toNat (decimalDigits (s.reg x)))) ⟨rfl, rfl, rfl, rfl, rfl⟩ h
  case stRegs x =>
    exact guard_keeps (u := s.setMemory (s.memory.writeBytes s.i.toNat (s.regsUpTo x))) ⟨rfl, rfl, rfl, rfl, rfl⟩ h
  case ldRegs x =>
    exact guard_keeps (u := s.setRegs (writeRegs s.v 0 (s.memory.readBytes s.i.toNat (x.val + 1)))) ⟨rfl, rfl, rfl, rfl, rfl⟩ h
  case seImm x nn => cases h; rw [skipIf_eq]; exact ⟨rfl, rfl, rfl, rfl, rfl⟩
  case sneImm x nn => cases h; rw [skipIf_eq]; exact ⟨rfl, rfl, rfl, rfl, rfl⟩
  case seReg x y => cases h; rw [skipIf_eq]; exact ⟨rfl, rfl, rfl, rfl, rfl⟩
  case sneReg x y => cases h; rw [skipIf_eq]; exact ⟨rfl, rfl, rfl, rfl, rfl⟩
  case skp x => cases h; rw [skipIf_eq]; exact ⟨rfl, rfl, rfl, rfl, rfl⟩
  case sknp x => cases h; rw [skipIf_eq]; exact ⟨rfl, rfl, rfl, rfl, rfl⟩
  all_goals cases h; exact ⟨rfl, rfl, rfl, rfl, rfl⟩

/-- The Step cycle changes none of them either. -/
theorem engineStep_keeps {s t : State} (h : engineStep s = .next t) : Keeps s t := by
  rcases engineStep_cases s with ⟨-, e⟩ | ⟨-, -, e⟩ | ⟨-, -, -, e⟩ | ⟨-, -, i, -, e⟩ <;> rw [e] at h
  · cases h; exact ⟨rfl, rfl, rfl, rfl, rfl⟩
  · cases h; exact ⟨rfl, rfl, rfl, rfl, rfl⟩
  · cases h; exact ⟨rfl, rfl, rfl, rfl, rfl⟩
  · have k := exec_keeps h; exact ⟨k.config, k.inputs, k.rnd, k.keys, k.justReset⟩

end Sys2Proof.Machine
end

