-- ==== Sys2Proof/Laws/Commute.lean ====
section
/-! SUPPORT. The pending operations, the draw and the report are nothing to an instruction and to the Step cycle: each commutes with replacing them
(the draw for every instruction but CXNN, which alone reads it). So a `Step` of the host and the model's own do the same. -/

namespace Sys2Proof.Machine

theorem mapNext_next (f : State → State) (t : State) : mapNext f (.next t) = .next (f t) := rfl

theorem mapNext_guard (f : State → State) (s : State) (e : Option Fault) (u : State)
    (hr : ∀ r, raise r (f s) = mapNext f (raise r s)) :
    guardError e (f s) (.next (f u)) = mapNext f (guardError e s (.next u)) := by
  cases e with
  | none => rfl
  | some r => exact hr r

theorem setCollision_setRnd (s : State) (c : Bool) (r : Option Byte) : (s.setRnd r).setCollision c = (s.setCollision c).setRnd r := by
  unfold State.setCollision
  rw [State.setRnd_config]
  split <;> rfl

theorem setCollision_setInputs (s : State) (c : Bool) (ops : List HostOp) :
    (s.setInputs ops).setCollision c = (s.setCollision c).setInputs ops := by
  unfold State.setCollision
  rw [State.setInputs_config]
  split <;> rfl

/-- Every instruction but CXNN does the same whatever the draw. -/
theorem exec_setRnd {i : Instr} (s : State) (r : Option Byte) (h : ∀ x nn, i ≠ .rnd x nn) :
    exec i (s.setRnd r) = mapNext (State.setRnd · r) (exec i s) := by
  cases i
  case rnd x nn => exact absurd rfl (h x nn)
  case ret =>
    by_cases hs : 0 < s.stackIndex.val
    · rw [exec_ret_some hs, exec_ret_some (s := s.setRnd r) hs]; rfl
    · rw [exec_ret_none hs, exec_ret_none (s := s.setRnd r) hs]; rfl
  case call nnn =>
    by_cases hs : s.stackIndex.val < 16
    · rw [exec_call_some hs, exec_call_some (s := s.setRnd r) hs]; rfl
    · rw [exec_call_none hs, exec_call_none (s := s.setRnd r) hs]; rfl
  case drw x y n =>
    refine Eq.trans ?_ (mapNext_guard (State.setRnd · r) s (s.rangeError n.val) _ fun _ => rfl)
    exact congrArg (fun u => guardError (s.rangeError n.val) (s.setRnd r) (.next u)) (setCollision_setRnd (s.setPixels (s.blitted x y n).1) (s.blitted x y n).2 r)
  case ldB x =>
    exact mapNext_guard (State.setRnd · r) s (s.rangeError 3) (s.setMemory (s.memory.writeBytes s.i.toNat (decimalDigits (s.reg x)))) fun _ => rfl
  case stRegs x =>
    exact mapNext_guard (State.setRnd · r) s (s.rangeError (x.val + 1)) (s.setMemory (s.memory.writeBytes s.i.toNat (s.regsUpTo x))) fun _ => rfl
  case ldRegs x =>
    exact mapNext_guard (State.setRnd · r) s (s.rangeError (x.val + 1))
      (s.setRegs (writeRegs s.v 0 (s.memory.readBytes s.i.toNat (x.val + 1)))) fun _ => rfl
  case seImm x nn => simp only [exec, execSeImm, mapNext, skipIf_eq]; rfl
  case sneImm x nn => simp only [exec, execSneImm, mapNext, skipIf_eq]; rfl
  case seReg x y => simp only [exec, execSeReg, mapNext, skipIf_eq]; rfl
  case sneReg x y => simp only [exec, execSneReg, mapNext, skipIf_eq]; rfl
  case skp x => simp only [exec, execSkp, mapNext, skipIf_eq]; rfl
  case sknp x => simp only [exec, execSknp, mapNext, skipIf_eq]; rfl
  all_goals rfl

/-- Every instruction does the same whatever operations are pending. -/
theorem exec_setInputs (i : Instr) (s : State) (ops : List HostOp) :
    exec i (s.setInputs ops) = mapNext (State.setInputs · ops) (exec i s) := by
  cases i
  case ret =>
    by_cases hs : 0 < s.stackIndex.val
    · rw [exec_ret_some hs, exec_ret_some (s := s.setInputs ops) hs]; rfl
    · rw [exec_ret_none hs, exec_ret_none (s := s.setInputs ops) hs]; rfl
  case call nnn =>
    by_cases hs : s.stackIndex.val < 16
    · rw [exec_call_some hs, exec_call_some (s := s.setInputs ops) hs]; rfl
    · rw [exec_call_none hs, exec_call_none (s := s.setInputs ops) hs]; rfl
  case drw x y n =>
    refine Eq.trans ?_ (mapNext_guard (State.setInputs · ops) s (s.rangeError n.val) _ fun _ => rfl)
    exact congrArg (fun u => guardError (s.rangeError n.val) (s.setInputs ops) (.next u)) (setCollision_setInputs (s.setPixels (s.blitted x y n).1) (s.blitted x y n).2 ops)
  case ldB x =>
    exact mapNext_guard (State.setInputs · ops) s (s.rangeError 3) (s.setMemory (s.memory.writeBytes s.i.toNat (decimalDigits (s.reg x))))
      fun _ => rfl
  case stRegs x =>
    exact mapNext_guard (State.setInputs · ops) s (s.rangeError (x.val + 1)) (s.setMemory (s.memory.writeBytes s.i.toNat (s.regsUpTo x)))
      fun _ => rfl
  case ldRegs x =>
    exact mapNext_guard (State.setInputs · ops) s (s.rangeError (x.val + 1))
      (s.setRegs (writeRegs s.v 0 (s.memory.readBytes s.i.toNat (x.val + 1)))) fun _ => rfl
  case seImm x nn => simp only [exec, execSeImm, mapNext, skipIf_eq]; rfl
  case sneImm x nn => simp only [exec, execSneImm, mapNext, skipIf_eq]; rfl
  case seReg x y => simp only [exec, execSeReg, mapNext, skipIf_eq]; rfl
  case sneReg x y => simp only [exec, execSneReg, mapNext, skipIf_eq]; rfl
  case skp x => simp only [exec, execSkp, mapNext, skipIf_eq]; rfl
  case sknp x => simp only [exec, execSknp, mapNext, skipIf_eq]; rfl
  all_goals rfl

/-- The Step cycle does the same whatever operations are pending. -/
theorem engineStep_setInputs (s : State) (ops : List HostOp) :
    engineStep (s.setInputs ops) = mapNext (State.setInputs · ops) (engineStep s) := by
  rcases engineStep_cases s with ⟨ha, e⟩ | ⟨ha, hp, e⟩ | ⟨ha, hp, ⟨_, hd⟩, e⟩ | ⟨ha, hp, i, hd, e⟩ <;> rw [e]
  · rw [engineStep_idle (s := s.setInputs ops) ha]; rfl
  · rw [engineStep_fetchError (s := s.setInputs ops) ha hp]; rfl
  · rw [engineStep_unknown (s := s.setInputs ops) ha hp hd]; rfl
  · rw [engineStep_exec (s := s.setInputs ops) ha hp hd]
    exact exec_setInputs i s.advanced ops

/-- The Step cycle does the same whatever the draw, unless it executes CXNN. -/
theorem engineStep_setRnd (s : State) (r : Option Byte)
    (h : s.awaitingKey = true ∨ 0x0FFE < s.pc.toNat ∨ ∀ x nn, decodeWord s.fetchWord ≠ .ok (.rnd x nn)) :
    engineStep (s.setRnd r) = mapNext (State.setRnd · r) (engineStep s) := by
  rcases engineStep_cases s with ⟨ha, e⟩ | ⟨ha, hp, e⟩ | ⟨ha, hp, ⟨_, hd⟩, e⟩ | ⟨ha, hp, i, hd, e⟩ <;> rw [e]
  · rw [engineStep_idle (s := s.setRnd r) ha]; rfl
  · rw [engineStep_fetchError (s := s.setRnd r) ha hp]; rfl
  · rw [engineStep_unknown (s := s.setRnd r) ha hp hd]; rfl
  · rw [engineStep_exec (s := s.setRnd r) ha hp hd]
    refine exec_setRnd s.advanced r fun x nn hi => ?_
    rcases h with h | h | h
    · rw [ha] at h; cases h
    · omega
    · exact h x nn (by rw [hd, hi])

/-- Unless it executes CXNN, a `Step` of either kind is the Step cycle, after which `rest` is pending. -/
theorem step_of_stepPending {s : State} {rest : List HostOp} (hs : s.stepPending rest)
    (h : s.awaitingKey = true ∨ 0x0FFE < s.pc.toNat ∨ ∀ x nn, decodeWord s.fetchWord ≠ .ok (.rnd x nn)) :
    step s = mapNext (State.setInputs · rest) (engineStep s.leaveReset) := by
  rcases hs with ⟨hi, rfl⟩ | ⟨hr, b, hi⟩
  · have e : s.leaveReset = s.leaveReset.setInputs [] := by
      rw [← hi]; rfl
    rw [step_nil hi]
    conv_lhs => rw [e]
    exact engineStep_setInputs s.leaveReset []
  · rw [step_cons hi]
    change mapNext (State.setRnd · none) (engineStep ((s.leaveReset.setInputs rest).setRnd (some b))) = _
    rw [engineStep_setRnd (s.leaveReset.setInputs rest) (some b) h, engineStep_setInputs]
    cases he : engineStep s.leaveReset with
    | next t =>
      have k := (engineStep_keeps he).rnd
      have hr' : t.rnd = none := k.trans hr
      simp only [mapNext]
      congr 1
      rw [← hr']; rfl
    | fault r => rfl
    | refused r => rfl

end Sys2Proof.Machine
end

