-- ==== Sys2Proof/Laws/Decode.lean ====
section
/-! SUPPORT. The laws of the fields of a word: ranges, what a mask fixes, and the words the encoder builds. -/

namespace Sys2Proof

theorem bits_lt (op : Word) (hi lo : Nat) : bits op hi lo < 2 ^ (hi - lo + 1) := Nat.mod_lt _ (by positivity)

/-- A field that the mask covers is the same in the masked word. -/
theorem bits_and (op mask : Word) (hi lo : Nat) (h : bits mask hi lo = 2 ^ (hi - lo + 1) - 1) :
    bits (op &&& mask) hi lo = bits op hi lo := by
  unfold bits at *
  rw [← Nat.shiftRight_eq_div_pow, ← Nat.and_two_pow_sub_one_eq_mod] at *
  rw [BitVec.toNat_and, Nat.shiftRight_and_distrib, Nat.and_assoc, h, Nat.and_two_pow_sub_one_eq_mod,
    ← Nat.shiftRight_eq_div_pow]

/-- What `op & mask = value` says of a field that the mask covers. -/
theorem bits_of_mask {op mask value : Word} (hi lo : Nat) (h : op &&& mask = value)
    (hm : bits mask hi lo = 2 ^ (hi - lo + 1) - 1) : bits op hi lo = bits value hi lo := by
  rw [← bits_and op mask hi lo hm, h]

/-- A word is its four nibbles. -/
theorem toNat_eq_nibbles (op : Word) :
    op.toNat = bits op 15 12 * 4096 + bits op 11 8 * 256 + bits op 7 4 * 16 + bits op 3 0 := by
  have := op.isLt
  simp only [bits]
  omega

/-- The low byte is the two low nibbles. -/
theorem bits_low (op : Word) : bits op 7 0 = bits op 7 4 * 16 + bits op 3 0 := by
  simp only [bits]
  omega

/-- A mask of whole nibbles keeps them: `op & mask = value` iff the nibbles it covers agree. -/
theorem and_F000_iff (op value : Word) (h : value &&& 0x0FFF = 0) :
    op &&& 0xF000 = value ↔ bits op 15 12 = bits value 15 12 := by
  refine ⟨fun e => bits_of_mask 15 12 e (by decide), fun e => ?_⟩
  have h1 := toNat_eq_nibbles (op &&& 0xF000)
  have h2 := toNat_eq_nibbles value
  have z : ∀ hi lo, bits (0x0FFF : Word) hi lo = 2 ^ (hi - lo + 1) - 1 → bits value hi lo = 0 := fun hi lo hm => by
    rw [← bits_and value 0x0FFF hi lo hm, h]; simp [bits]
  have c : ∀ hi lo, bits (0x0FFF : Word) hi lo = 2 ^ (hi - lo + 1) - 1 → bits (op &&& 0xF000) hi lo = 0 := fun hi lo hm => by
    rw [← bits_and (op &&& 0xF000) 0x0FFF hi lo hm, BitVec.and_assoc]; simp [bits]
  apply BitVec.eq_of_toNat_eq
  rw [h1, h2, z 11 8 (by decide), z 7 4 (by decide), z 3 0 (by decide), c 11 8 (by decide), c 7 4 (by decide), c 3 0 (by decide),
    bits_and op 0xF000 15 12 (by decide), e]

/-- The same for the mask of the XY format. -/
theorem and_F00F_iff (op value : Word) (h : value &&& 0x0FF0 = 0) :
    op &&& 0xF00F = value ↔ bits op 15 12 = bits value 15 12 ∧ bits op 3 0 = bits value 3 0 := by
  refine ⟨fun e => ⟨bits_of_mask 15 12 e (by decide), bits_of_mask 3 0 e (by decide)⟩, fun e => ?_⟩
  have h1 := toNat_eq_nibbles (op &&& 0xF00F)
  have h2 := toNat_eq_nibbles value
  have z : ∀ hi lo, bits (0x0FF0 : Word) hi lo = 2 ^ (hi - lo + 1) - 1 → bits value hi lo = 0 := fun hi lo hm => by
    rw [← bits_and value 0x0FF0 hi lo hm, h]; simp [bits]
  have c : ∀ hi lo, bits (0x0FF0 : Word) hi lo = 2 ^ (hi - lo + 1) - 1 → bits (op &&& 0xF00F) hi lo = 0 := fun hi lo hm => by
    rw [← bits_and (op &&& 0xF00F) 0x0FF0 hi lo hm, BitVec.and_assoc]; simp [bits]
  apply BitVec.eq_of_toNat_eq
  rw [h1, h2, z 11 8 (by decide), z 7 4 (by decide), c 11 8 (by decide), c 7 4 (by decide),
    bits_and op 0xF00F 15 12 (by decide), bits_and op 0xF00F 3 0 (by decide), e.1, e.2]

/-- The same for the mask of the X format. -/
theorem and_F0FF_iff (op value : Word) (h : value &&& 0x0F00 = 0) :
    op &&& 0xF0FF = value ↔ bits op 15 12 = bits value 15 12 ∧ bits op 7 0 = bits value 7 0 := by
  refine ⟨fun e => ⟨bits_of_mask 15 12 e (by decide), bits_of_mask 7 0 e (by decide)⟩, fun e => ?_⟩
  have h1 := toNat_eq_nibbles (op &&& 0xF0FF)
  have h2 := toNat_eq_nibbles value
  have l1 := bits_low (op &&& 0xF0FF)
  have l2 := bits_low value
  have z : bits value 11 8 = 0 := by
    rw [← bits_and value 0x0F00 11 8 (by decide), h]; simp [bits]
  have c : bits (op &&& 0xF0FF) 11 8 = 0 := by
    rw [← bits_and (op &&& 0xF0FF) 0x0F00 11 8 (by decide), BitVec.and_assoc]; simp [bits]
  apply BitVec.eq_of_toNat_eq
  rw [bits_and op 0xF0FF 7 0 (by decide), e.2] at l1
  rw [bits_and op 0xF0FF 15 12 (by decide), e.1] at h1
  omega

/-! The fields of the words the encoder builds. -/

theorem wordNNN_toNat {op : Nat} (h : op < 16) (nnn : Addr) : (wordNNN op nnn).toNat = op * 4096 + nnn.toNat := by
  have := nnn.isLt
  simp only [wordNNN, BitVec.toNat_ofNat]; omega

theorem wordXNN_toNat {op : Nat} (h : op < 16) (x : Reg) (nn : Byte) :
    (wordXNN op x nn).toNat = op * 4096 + x.val * 256 + nn.toNat := by
  have := nn.isLt; have := x.isLt
  simp only [wordXNN, BitVec.toNat_ofNat]; omega

theorem wordXYN_toNat {op n : Nat} (h : op < 16) (hn : n < 16) (x y : Reg) :
    (wordXYN op x y n).toNat = op * 4096 + x.val * 256 + y.val * 16 + n := by
  have := y.isLt; have := x.isLt
  simp only [wordXYN, BitVec.toNat_ofNat]; omega

theorem wordX_toNat {op f : Nat} (h : op < 16) (hf : f < 256) (x : Reg) : (wordX op x f).toNat = op * 4096 + x.val * 256 + f := by
  have := x.isLt
  simp only [wordX, BitVec.toNat_ofNat]; omega

theorem bits_wordNNN {op : Nat} (h : op < 16) (nnn : Addr) : bits (wordNNN op nnn) 15 12 = op := by
  have := nnn.isLt
  simp only [bits, wordNNN_toNat h]; omega

theorem bits_wordXNN {op : Nat} (h : op < 16) (x : Reg) (nn : Byte) : bits (wordXNN op x nn) 15 12 = op := by
  have := nn.isLt; have := x.isLt
  simp only [bits, wordXNN_toNat h]; omega

theorem bits_wordXYN {op n : Nat} (h : op < 16) (hn : n < 16) (x y : Reg) :
    bits (wordXYN op x y n) 15 12 = op ∧ bits (wordXYN op x y n) 3 0 = n := by
  have := y.isLt; have := x.isLt
  simp only [bits, wordXYN_toNat h hn]; omega

theorem bits_wordX {op f : Nat} (h : op < 16) (hf : f < 256) (x : Reg) :
    bits (wordX op x f) 15 12 = op ∧ bits (wordX op x f) 7 0 = f := by
  have := x.isLt
  simp only [bits, wordX_toNat h hf]; omega

/-- Bytes put together and taken apart again. -/
theorem wordOfBytes_high_low (op : Word) : wordOfBytes (highByte op) (lowByte op) = op := by
  apply BitVec.eq_of_toNat_eq
  have := op.isLt
  simp only [wordOfBytes, highByte, lowByte, bits, BitVec.toNat_ofNat]
  omega

end Sys2Proof
end

