-- ==== Sys2Proof/Laws/PerInstr.lean ====
section
/-! SUPPORT. Per instruction: the word the encoder gives an instruction matches the row of its mnemonic in the opcode map, in its format (R92,
R96). -/

namespace Sys2Proof.Laws.RowMatch

/-- The opcode map has a row of the instruction's mnemonic and format that selects its encoded word. -/
def Statement (i : Instr) : Prop :=
  ∃ r ∈ opcodeTable, r.mnemonic = i.mnemonic ∧ r.format = i.format ∧ r.selects (encode i) = true

theorem selects_fixed {m : String} {v : Word} {f : Format} : (OpcodeRow.mk m 0xFFFF v f).selects v = true := by
  have : v &&& 0xFFFF = v := BitVec.and_allOnes
  simp [OpcodeRow.selects]
  exact this

theorem selects_F000 {m : String} {v op : Word} {f : Format} (hv : v &&& 0x0FFF = 0) (h : bits op 15 12 = bits v 15 12) :
    (OpcodeRow.mk m 0xF000 v f).selects op = true := by
  simpa [OpcodeRow.selects] using (and_F000_iff op v hv).mpr h

theorem selects_F00F {m : String} {v op : Word} {f : Format} (hv : v &&& 0x0FF0 = 0)
    (h : bits op 15 12 = bits v 15 12 ∧ bits op 3 0 = bits v 3 0) : (OpcodeRow.mk m 0xF00F v f).selects op = true := by
  simpa [OpcodeRow.selects] using (and_F00F_iff op v hv).mpr h

theorem selects_F0FF {m : String} {v op : Word} {f : Format} (hv : v &&& 0x0F00 = 0)
    (h : bits op 15 12 = bits v 15 12 ∧ bits op 7 0 = bits v 7 0) : (OpcodeRow.mk m 0xF0FF v f).selects op = true := by
  simpa [OpcodeRow.selects] using (and_F0FF_iff op v hv).mpr h

theorem cls : Statement (.cls) :=
  ⟨⟨"CLS", 0xFFFF, 0x00E0, .fixed⟩, by simp [opcodeTable, opcodeRowsFlow], rfl, rfl, selects_fixed⟩

theorem ret : Statement (.ret) :=
  ⟨⟨"RET", 0xFFFF, 0x00EE, .fixed⟩, by simp [opcodeTable, opcodeRowsFlow], rfl, rfl, selects_fixed⟩

theorem jp (nnn : Addr) : Statement (.jp nnn) :=
  ⟨⟨"JP_NNN", 0xF000, 0x1000, .nnn⟩, by simp [opcodeTable, opcodeRowsFlow], rfl, rfl, selects_F000 (by decide) (bits_wordNNN (by decide) nnn)⟩

theorem call (nnn : Addr) : Statement (.call nnn) :=
  ⟨⟨"CALL_NNN", 0xF000, 0x2000, .nnn⟩, by simp [opcodeTable, opcodeRowsFlow], rfl, rfl, selects_F000 (by decide) (bits_wordNNN (by decide) nnn)⟩

theorem seImm (x : Reg) (nn : Byte) : Statement (.seImm x nn) :=
  ⟨⟨"SE_Vx__NN", 0xF000, 0x3000, .xnn⟩, by simp [opcodeTable, opcodeRowsFlow], rfl, rfl, selects_F000 (by decide) (bits_wordXNN (by decide) x nn)⟩

theorem sneImm (x : Reg) (nn : Byte) : Statement (.sneImm x nn) :=
  ⟨⟨"SNE_Vx__NN", 0xF000, 0x4000, .xnn⟩, by simp [opcodeTable, opcodeRowsFlow], rfl, rfl, selects_F000 (by decide) (bits_wordXNN (by decide) x nn)⟩

theorem seReg (x y : Reg) : Statement (.seReg x y) :=
  ⟨⟨"SE_Vx__Vy", 0xF00F, 0x5000, .xy⟩, by simp [opcodeTable, opcodeRowsFlow], rfl, rfl, selects_F00F (by decide) (bits_wordXYN (by decide) (by decide) x y)⟩

theorem ldImm (x : Reg) (nn : Byte) : Statement (.ldImm x nn) :=
  ⟨⟨"LD_Vx__NN", 0xF000, 0x6000, .xnn⟩, by simp [opcodeTable, opcodeRowsFlow], rfl, rfl, selects_F000 (by decide) (bits_wordXNN (by decide) x nn)⟩

theorem addImm (x : Reg) (nn : Byte) : Statement (.addImm x nn) :=
  ⟨⟨"ADD_Vx__NN", 0xF000, 0x7000, .xnn⟩, by simp [opcodeTable, opcodeRowsFlow], rfl, rfl, selects_F000 (by decide) (bits_wordXNN (by decide) x nn)⟩

theorem ldReg (x y : Reg) : Statement (.ldReg x y) :=
  ⟨⟨"LD_Vx__Vy", 0xF00F, 0x8000, .xy⟩, by simp [opcodeTable, opcodeRowsAlu], rfl, rfl, selects_F00F (by decide) (bits_wordXYN (by decide) (by decide) x y)⟩

theorem or (x y : Reg) : Statement (.or x y) :=
  ⟨⟨"OR_Vx__Vy", 0xF00F, 0x8001, .xy⟩, by simp [opcodeTable, opcodeRowsAlu], rfl, rfl, selects_F00F (by decide) (bits_wordXYN (by decide) (by decide) x y)⟩

theorem and (x y : Reg) : Statement (.and x y) :=
  ⟨⟨"AND_Vx__Vy", 0xF00F, 0x8002, .xy⟩, by simp [opcodeTable, opcodeRowsAlu], rfl, rfl, selects_F00F (by decide) (bits_wordXYN (by decide) (by decide) x y)⟩

theorem xor (x y : Reg) : Statement (.xor x y) :=
  ⟨⟨"XOR_Vx__Vy", 0xF00F, 0x8003, .xy⟩, by simp [opcodeTable, opcodeRowsAlu], rfl, rfl, selects_F00F (by decide) (bits_wordXYN (by decide) (by decide) x y)⟩

theorem addReg (x y : Reg) : Statement (.addReg x y) :=
  ⟨⟨"ADD_Vx__Vy", 0xF00F, 0x8004, .xy⟩, by simp [opcodeTable, opcodeRowsAlu], rfl, rfl, selects_F00F (by decide) (bits_wordXYN (by decide) (by decide) x y)⟩

theorem sub (x y : Reg) : Statement (.sub x y) :=
  ⟨⟨"SUB_Vx__Vy", 0xF00F, 0x8005, .xy⟩, by simp [opcodeTable, opcodeRowsAlu], rfl, rfl, selects_F00F (by decide) (bits_wordXYN (by decide) (by decide) x y)⟩

theorem shr (x y : Reg) : Statement (.shr x y) :=
  ⟨⟨"SHR_Vx__Vy", 0xF00F, 0x8006, .xy⟩, by simp [opcodeTable, opcodeRowsAlu], rfl, rfl, selects_F00F (by decide) (bits_wordXYN (by decide) (by decide) x y)⟩

theorem subn (x y : Reg) : Statement (.subn x y) :=
  ⟨⟨"SUBN_Vx__Vy", 0xF00F, 0x8007, .xy⟩, by simp [opcodeTable, opcodeRowsAlu], rfl, rfl, selects_F00F (by decide) (bits_wordXYN (by decide) (by decide) x y)⟩

theorem shl (x y : Reg) : Statement (.shl x y) :=
  ⟨⟨"SHL_Vx__Vy", 0xF00F, 0x800E, .xy⟩, by simp [opcodeTable, opcodeRowsAlu], rfl, rfl, selects_F00F (by decide) (bits_wordXYN (by decide) (by decide) x y)⟩

theorem sneReg (x y : Reg) : Statement (.sneReg x y) :=
  ⟨⟨"SNE_Vx__Vy", 0xF00F, 0x9000, .xy⟩, by simp [opcodeTable, opcodeRowsIndex], rfl, rfl, selects_F00F (by decide) (bits_wordXYN (by decide) (by decide) x y)⟩

theorem ldI (nnn : Addr) : Statement (.ldI nnn) :=
  ⟨⟨"LD_I__NNN", 0xF000, 0xA000, .nnn⟩, by simp [opcodeTable, opcodeRowsIndex], rfl, rfl, selects_F000 (by decide) (bits_wordNNN (by decide) nnn)⟩

theorem jpV0 (nnn : Addr) : Statement (.jpV0 nnn) :=
  ⟨⟨"JP_V0__NNN", 0xF000, 0xB000, .nnn⟩, by simp [opcodeTable, opcodeRowsIndex], rfl, rfl, selects_F000 (by decide) (bits_wordNNN (by decide) nnn)⟩

theorem rnd (x : Reg) (nn : Byte) : Statement (.rnd x nn) :=
  ⟨⟨"RND_Vx__NN", 0xF000, 0xC000, .xnn⟩, by simp [opcodeTable, opcodeRowsIndex], rfl, rfl, selects_F000 (by decide) (bits_wordXNN (by decide) x nn)⟩

theorem drw (x y : Reg) (n : Rows) : Statement (.drw x y n) :=
  ⟨⟨"DRW_Vx__Vy__N", 0xF000, 0xD000, .xyn⟩, by simp [opcodeTable, opcodeRowsIndex], rfl, rfl, selects_F000 (by decide) (bits_wordXYN (by decide) n.isLt x y).1⟩

theorem skp (x : Reg) : Statement (.skp x) :=
  ⟨⟨"SKP_Vx", 0xF0FF, 0xE09E, .x⟩, by simp [opcodeTable, opcodeRowsIndex], rfl, rfl, selects_F0FF (by decide) (bits_wordX (by decide) (by decide) x)⟩

theorem sknp (x : Reg) : Statement (.sknp x) :=
  ⟨⟨"SKNP_Vx", 0xF0FF, 0xE0A1, .x⟩, by simp [opcodeTable, opcodeRowsIndex], rfl, rfl, selects_F0FF (by decide) (bits_wordX (by decide) (by decide) x)⟩

theorem ldFromDT (x : Reg) : Statement (.ldFromDT x) :=
  ⟨⟨"LD_Vx__DT", 0xF0FF, 0xF007, .x⟩, by simp [opcodeTable, opcodeRowsFx], rfl, rfl, selects_F0FF (by decide) (bits_wordX (by decide) (by decide) x)⟩

theorem ldKey (x : Reg) : Statement (.ldKey x) :=
  ⟨⟨"LD_Vx__K", 0xF0FF, 0xF00A, .x⟩, by simp [opcodeTable, opcodeRowsFx], rfl, rfl, selects_F0FF (by decide) (bits_wordX (by decide) (by decide) x)⟩

theorem ldDT (x : Reg) : Statement (.ldDT x) :=
  ⟨⟨"LD_DT__Vx", 0xF0FF, 0xF015, .x⟩, by simp [opcodeTable, opcodeRowsFx], rfl, rfl, selects_F0FF (by decide) (bits_wordX (by decide) (by decide) x)⟩

theorem ldST (x : Reg) : Statement (.ldST x) :=
  ⟨⟨"LD_ST__Vx", 0xF0FF, 0xF018, .x⟩, by simp [opcodeTable, opcodeRowsFx], rfl, rfl, selects_F0FF (by decide) (bits_wordX (by decide) (by decide) x)⟩

theorem addI (x : Reg) : Statement (.addI x) :=
  ⟨⟨"ADD_I__Vx", 0xF0FF, 0xF01E, .x⟩, by simp [opcodeTable, opcodeRowsFx], rfl, rfl, selects_F0FF (by decide) (bits_wordX (by decide) (by decide) x)⟩

theorem ldF (x : Reg) : Statement (.ldF x) :=
  ⟨⟨"LD_F__Vx", 0xF0FF, 0xF029, .x⟩, by simp [opcodeTable, opcodeRowsFx], rfl, rfl, selects_F0FF (by decide) (bits_wordX (by decide) (by decide) x)⟩

theorem ldB (x : Reg) : Statement (.ldB x) :=
  ⟨⟨"LD_B__Vx", 0xF0FF, 0xF033, .x⟩, by simp [opcodeTable, opcodeRowsFx], rfl, rfl, selects_F0FF (by decide) (bits_wordX (by decide) (by decide) x)⟩

theorem stRegs (x : Reg) : Statement (.stRegs x) :=
  ⟨⟨"LD__I___Vx", 0xF0FF, 0xF055, .x⟩, by simp [opcodeTable, opcodeRowsFx], rfl, rfl, selects_F0FF (by decide) (bits_wordX (by decide) (by decide) x)⟩

theorem ldRegs (x : Reg) : Statement (.ldRegs x) :=
  ⟨⟨"LD_Vx___I", 0xF0FF, 0xF065, .x⟩, by simp [opcodeTable, opcodeRowsFx], rfl, rfl, selects_F0FF (by decide) (bits_wordX (by decide) (by decide) x)⟩

end Sys2Proof.Laws.RowMatch
end

