-- ==== Sys2Proof/Laws/Pixels.lean ====
section
/-! SUPPORT. The laws of the pixel grid and of the blitter: what each toggled bit, each sprite row and a whole sprite leave at every cell, and
when they collide. -/

namespace Sys2Proof.Machine

theorem Screen.get_outside (p : Screen) {x y : Nat} (h : ¬ (x < 64 ∧ y < 32)) : Screen.get p x y = false := by
  rw [Screen.get, dif_neg h]

@[simp] theorem Screen.get_blank (x y : Nat) : Screen.get Screen.blank x y = false := by
  unfold Screen.get Screen.blank
  split <;> simp

/-- A toggled cell inside the grid changes, every other cell stays; outside nothing changes. -/
theorem Screen.get_toggle (p : Screen) (x y x' y' : Nat) :
    Screen.get (Screen.toggle p x y) x' y' = (Screen.get p x' y' ^^ decide (x' = x ∧ y' = y ∧ x < 64 ∧ y < 32)) := by
  by_cases h : x < 64 ∧ y < 32
  · by_cases h' : x' < 64 ∧ y' < 32
    · simp only [Screen.get, Screen.toggle, h, h', and_self, dif_pos, Vector.getElem_set]
      by_cases hy : y = y'
      · subst hy
        by_cases hx : x = x'
        · subst hx; simp
        · simp [hx, Ne.symm hx]
      · simp [hy, Ne.symm hy]
    · rw [Screen.get_outside _ h', Screen.get_outside _ h']
      simp only [Bool.false_xor]
      exact (decide_eq_false (by omega)).symm
  · rw [Screen.toggle, dif_neg h, decide_eq_false (by omega), Bool.xor_false]

/-- Two grids with equal cells are equal. -/
theorem Screen.ext_get {p q : Screen} (h : ∀ x y, x < 64 → y < 32 → Screen.get p x y = Screen.get q x y) : p = q := by
  refine Vector.ext fun y hy => Vector.ext fun x hx => ?_
  have := h x y hx hy
  simpa [Screen.get, hx, hy] using this

/-- Whether sprite row `b`, drawn from column x0 on row y, has a set bit at cell (px, py) of the grid (R190, R192, R193). -/
def rowBit (b : Byte) (x0 y px py : Nat) : Bool :=
  decide (py = y ∧ x0 ≤ px ∧ px < x0 + 8 ∧ px < 64 ∧ y < 32) && b.getLsbD (7 - (px - x0))

theorem blitBit_get (b : Byte) (x0 y : Nat) (acc : Screen × Bool) (c px py : Nat) :
    Screen.get (blitBit b x0 y acc c).1 px py =
      (Screen.get acc.1 px py ^^ (b.getLsbD (7 - c) && decide (px = x0 + c ∧ py = y ∧ x0 + c < 64 ∧ y < 32))) := by
  unfold blitBit
  split
  · rename_i h; rw [Screen.get_toggle]; simp [h]
  · rename_i h; simp [h]

/-- The first n columns of a sprite row. -/
theorem blitCols_get (b : Byte) (x0 y : Nat) (acc : Screen × Bool) (n px py : Nat) :
    Screen.get ((List.range n).foldl (blitBit b x0 y) acc).1 px py =
      (Screen.get acc.1 px py ^^
        (decide (py = y ∧ x0 ≤ px ∧ px < x0 + n ∧ px < 64 ∧ y < 32) && b.getLsbD (7 - (px - x0)))) := by
  induction n with
  | zero => rw [decide_eq_false (by omega)]; simp
  | succ n ih =>
    rw [List.range_succ, List.foldl_append]
    simp only [List.foldl_cons, List.foldl_nil]
    rw [blitBit_get, ih, Bool.xor_assoc]
    congr 1
    by_cases e : px = x0 + n
    · subst e
      simp only [Nat.le_add_right, Nat.lt_irrefl, true_and, false_and, and_false, decide_false, Bool.false_and,
        Bool.false_xor, Nat.add_sub_cancel_left, show x0 + n < x0 + (n + 1) by omega]
      rw [Bool.and_comm]
    · simp only [e, false_and, decide_false, Bool.and_false, Bool.xor_false]
      congr 2
      simp only [eq_iff_iff]; omega

/-- What one sprite row leaves at every cell. -/
theorem blitRow_get (b : Byte) (x0 y : Nat) (acc : Screen × Bool) (px py : Nat) :
    Screen.get (blitRow b x0 y acc).1 px py = (Screen.get acc.1 px py ^^ rowBit b x0 y px py) :=
  blitCols_get b x0 y acc 8 px py

theorem blitCols_collided (b : Byte) (x0 y : Nat) (acc : Screen × Bool) (n : Nat) :
    ((List.range n).foldl (blitBit b x0 y) acc).2 = true ↔
      acc.2 = true ∨ ∃ c < n, b.getLsbD (7 - c) = true ∧ Screen.get acc.1 (x0 + c) y = true := by
  induction n with
  | zero => simp
  | succ n ih =>
    rw [List.range_succ, List.foldl_append]
    simp only [List.foldl_cons, List.foldl_nil]
    have hg := blitCols_get b x0 y acc n (x0 + n) y
    simp only [Nat.le_add_right, Nat.lt_irrefl, false_and, and_false, decide_false, Bool.false_and, Bool.xor_false] at hg
    have hstep : (blitBit b x0 y ((List.range n).foldl (blitBit b x0 y) acc) n).2 = true ↔
        ((List.range n).foldl (blitBit b x0 y) acc).2 = true ∨
          (b.getLsbD (7 - n) = true ∧ Screen.get acc.1 (x0 + n) y = true) := by
      generalize (List.range n).foldl (blitBit b x0 y) acc = acc' at hg
      rw [← hg]
      unfold blitBit
      split
      · rename_i h; simp only [Bool.or_eq_true, h, true_and]
      · rename_i h; simp [h]
    rw [hstep, ih]
    constructor
    · rintro ((h | ⟨c, hc, h⟩) | h)
      · exact .inl h
      · exact .inr ⟨c, by omega, h⟩
      · exact .inr ⟨n, by omega, h⟩
    · rintro (h | ⟨c, hc, h⟩)
      · exact .inl (.inl h)
      · by_cases e : c = n
        · subst e; exact .inr h
        · exact .inl (.inr ⟨c, by omega, h⟩)

/-- One sprite row collides iff one of its set bits meets a lit pixel. -/
theorem blitRow_collided (b : Byte) (x0 y : Nat) (acc : Screen × Bool) :
    (blitRow b x0 y acc).2 = true ↔
      acc.2 = true ∨ ∃ px, rowBit b x0 y px y = true ∧ Screen.get acc.1 px y = true := by
  rw [blitRow, blitCols_collided]
  refine or_congr Iff.rfl ⟨?_, ?_⟩
  · rintro ⟨c, hc, hb, hg⟩
    have hin : x0 + c < 64 ∧ y < 32 := by
      by_contra h; rw [Screen.get_outside _ h] at hg; exact Bool.noConfusion hg
    exact ⟨x0 + c, by simp [rowBit, hb, hin]; omega, hg⟩
  · rintro ⟨px, hb, hg⟩
    simp only [rowBit, Bool.and_eq_true, decide_eq_true_eq] at hb
    exact ⟨px - x0, by omega, hb.2, by rwa [show x0 + (px - x0) = px by omega]⟩

/-- Whether the sprite `bs`, drawn from (x0, y) down, has a set bit at cell (px, py) of the grid. -/
def spriteBit (bs : List Byte) (x0 y px py : Nat) : Bool :=
  decide (y ≤ py ∧ py < y + bs.length) && rowBit (bs.getD (py - y) 0) x0 py px py

theorem spriteBit_cons (b : Byte) (bs : List Byte) (x0 y px py : Nat) :
    spriteBit (b :: bs) x0 y px py = (rowBit b x0 y px py ^^ spriteBit bs x0 (y + 1) px py) := by
  unfold spriteBit
  rcases Nat.lt_trichotomy py y with l | l | l
  · simp [rowBit, show ¬ y ≤ py by omega, show ¬ y + 1 ≤ py by omega, show py ≠ y by omega]
  · subst l; simp
  · have e : py - y = (py - (y + 1)) + 1 := by omega
    simp only [List.length_cons, e, List.getD_cons_succ]
    have : rowBit b x0 y px py = false := by rw [rowBit, decide_eq_false (by omega), Bool.false_and]
    rw [this, Bool.false_xor]
    congr 2
    simp only [eq_iff_iff]; omega

/-- What a whole sprite leaves at every cell: the old cell XOR the sprite's bit there (R190, R193). -/
theorem blitRows_get (bs : List Byte) (x0 y : Nat) (acc : Screen × Bool) (px py : Nat) :
    Screen.get (blitRows x0 y bs acc).1 px py = (Screen.get acc.1 px py ^^ spriteBit bs x0 y px py) := by
  induction bs generalizing y acc with
  | nil => rw [spriteBit, decide_eq_false (by simp)]; simp [blitRows]
  | cons b bs ih => rw [blitRows, ih, blitRow_get, spriteBit_cons, Bool.xor_assoc]

/-- A whole sprite collides iff one of its set bits meets a pixel lit before it was drawn (R194). -/
theorem blitRows_collided (bs : List Byte) (x0 y : Nat) (acc : Screen × Bool) :
    (blitRows x0 y bs acc).2 = true ↔
      acc.2 = true ∨ ∃ px py, spriteBit bs x0 y px py = true ∧ Screen.get acc.1 px py = true := by
  induction bs generalizing y acc with
  | nil =>
    have : ∀ px py, spriteBit [] x0 y px py = false := fun px py => by
      rw [spriteBit, decide_eq_false (by simp), Bool.false_and]
    simp [blitRows, this]
  | cons b bs ih =>
    rw [blitRows, ih, blitRow_collided, or_assoc]
    refine or_congr Iff.rfl ⟨?_, ?_⟩
    · rintro (⟨px, hb, hg⟩ | ⟨px, py, hb, hg⟩)
      · refine ⟨px, y, ?_, hg⟩
        have : spriteBit bs x0 (y + 1) px y = false := by simp [spriteBit]
        rw [spriteBit_cons, hb, this]; rfl
      · have hy : y < py := by
          simp only [spriteBit, Bool.and_eq_true, decide_eq_true_eq] at hb; omega
        have hr : rowBit b x0 y px py = false := by rw [rowBit, decide_eq_false (by omega), Bool.false_and]
        rw [blitRow_get, hr, Bool.xor_false] at hg
        exact ⟨px, py, by rw [spriteBit_cons, hr, hb]; rfl, hg⟩
    · rintro ⟨px, py, hb, hg⟩
      rw [spriteBit_cons] at hb
      by_cases e : py = y
      · subst e
        have : spriteBit bs x0 (py + 1) px py = false := by simp [spriteBit]
        rw [this, Bool.xor_false] at hb
        exact .inl ⟨px, hb, hg⟩
      · have hr : rowBit b x0 y px py = false := by simp [rowBit, e]
        rw [hr, Bool.false_xor] at hb
        exact .inr ⟨px, py, hb, by rw [blitRow_get, hr, hg]; rfl⟩

end Sys2Proof.Machine
end

