-- ==== Sys2Proof/Tests/Slice0.lean ====
section
/-! SUPPORT. The model's own tests: words written out from the formats and patterns of the spec (R92, R96), ill-formed words and memories that the
checks refuse, one-step tests from the vectors of `95_test_vectors.md`, and for every statement with hypotheses a state that meets them. -/

namespace Sys2Proof.Tests

open Sys2Proof.Machine

/-! Helpers. -/

/-- The reset state with some registers set. -/
def withRegs (l : List (Reg × Byte)) : State :=
  { State.reset with v := l.foldl (fun v p => v.set p.1 p.2) (Vector.replicate 16 0) }

/-- The same with i. -/
def withI (a : Word) (l : List (Reg × Byte)) : State := { withRegs l with i := a }

/-- A keypad sample with the listed keys pressed. -/
def sample (l : List (Fin 16)) : Vector Bool 16 := l.foldl (fun v k => v.set k.val true k.isLt) (Vector.replicate 16 false)

/-- The state after one step that runs the word at 0x200; none unless it is a next state. -/
def after (w : Nat) (s : State) : Option State :=
  match step (s.withFetchWord 16 w) with
  | .next t => some t
  | _ => none

/-- The state after one host operation. -/
def afterOp (op : HostOp) (s : State) : Option State :=
  match step (s.setInputs [op]) with
  | .next t => some t
  | _ => none

/-- The reset state as an instruction fetched from 0x200 sees it. -/
def entry : State := { State.reset with pc := 0x0202 }

/-! Decoding: words written out bit by bit from the formats of R92 and the rows of R96. -/

theorem test_decode_fixed : decodeWord 0b0000_0000_1110_0000 = .ok .cls ∧ decodeWord 0b0000_0000_1110_1110 = .ok .ret := by decide

theorem test_decode_nnn :
    decodeWord 0b0001_1010_1011_1100 = .ok (.jp 0xABC) ∧ decodeWord 0b0010_1010_1011_1100 = .ok (.call 0xABC) ∧
    decodeWord 0b1010_1010_1011_1100 = .ok (.ldI 0xABC) ∧ decodeWord 0b1011_1010_1011_1100 = .ok (.jpV0 0xABC) := by decide

theorem test_decode_xnn :
    decodeWord 0b0011_1010_0100_0010 = .ok (.seImm 10 0x42) ∧ decodeWord 0b0100_1010_0100_0010 = .ok (.sneImm 10 0x42) ∧
    decodeWord 0b0110_1010_0100_0010 = .ok (.ldImm 10 0x42) ∧ decodeWord 0b0111_1010_0100_0010 = .ok (.addImm 10 0x42) ∧
    decodeWord 0b1100_1010_0100_0010 = .ok (.rnd 10 0x42) := by decide

theorem test_decode_skips_on_registers :
    decodeWord 0b0101_1010_1011_0000 = .ok (.seReg 10 11) ∧ decodeWord 0b1001_1010_1011_0000 = .ok (.sneReg 10 11) := by decide

theorem test_decode_alu :
    decodeWord 0b1000_1010_1011_0000 = .ok (.ldReg 10 11) ∧ decodeWord 0b1000_1010_1011_0001 = .ok (.or 10 11) ∧
    decodeWord 0b1000_1010_1011_0010 = .ok (.and 10 11) ∧ decodeWord 0b1000_1010_1011_0011 = .ok (.xor 10 11) ∧
    decodeWord 0b1000_1010_1011_0100 = .ok (.addReg 10 11) ∧ decodeWord 0b1000_1010_1011_0101 = .ok (.sub 10 11) ∧
    decodeWord 0b1000_1010_1011_0110 = .ok (.shr 10 11) ∧ decodeWord 0b1000_1010_1011_0111 = .ok (.subn 10 11) ∧
    decodeWord 0b1000_1010_1011_1110 = .ok (.shl 10 11) := by decide

theorem test_decode_draw_and_keys :
    decodeWord 0b1101_1010_1011_1111 = .ok (.drw 10 11 15) ∧ decodeWord 0b1110_0101_1001_1110 = .ok (.skp 5) ∧
    decodeWord 0b1110_0101_1010_0001 = .ok (.sknp 5) := by decide

theorem test_decode_fx :
    decodeWord 0b1111_0101_0000_0111 = .ok (.ldFromDT 5) ∧ decodeWord 0b1111_0101_0000_1010 = .ok (.ldKey 5) ∧
    decodeWord 0b1111_0101_0001_0101 = .ok (.ldDT 5) ∧ decodeWord 0b1111_0101_0001_1000 = .ok (.ldST 5) ∧
    decodeWord 0b1111_0101_0001_1110 = .ok (.addI 5) ∧ decodeWord 0b1111_0101_0010_1001 = .ok (.ldF 5) ∧
    decodeWord 0b1111_0101_0011_0011 = .ok (.ldB 5) ∧ decodeWord 0b1111_0101_0101_0101 = .ok (.stRegs 5) ∧
    decodeWord 0b1111_0101_0110_0101 = .ok (.ldRegs 5) := by decide

/-- R61, R90: high byte first; what follows is left. -/
theorem test_decode_bytes : decode [0x12, 0x34, 0x56] = .ok (.jp 0x234, [0x56]) := by decide

theorem test_decode_table_word : decodeTableWord 16 0xD015 = some (.drw 0 1 5) ∧ decodeTableWord 16 0x0000 = none := by decide

/-! What is ill formed is refused, by every check (R94, R95). -/

theorem test_smoke_family_0 : Word.recognised 0x0000 = false ∧ Word.recognised 0x00E1 = false ∧ Word.recognised 0x0123 = false := by decide

theorem test_smoke_families_5_9 : Word.recognised 0x5AB1 = false ∧ Word.recognised 0x9AB3 = false := by decide

theorem test_smoke_family_8 : Word.recognised 0x8AB8 = false ∧ Word.recognised 0x8ABF = false := by decide

theorem test_smoke_families_E_F : Word.recognised 0xE500 = false ∧ Word.recognised 0xF599 = false := by decide

theorem test_smoke_decode_rejects_by_name :
    decodeWord 0x8AB8 = .error (.unrecognised 0x8AB8) ∧ decodeWord 0xF599 = .error (.unrecognised 0xF599) ∧
    decode [0x12] = .error .truncated := by decide

/-- The check on memories: a cell at its unlisted value, cells out of order, a cell outside the 4096 bytes. -/
theorem test_smoke_memory :
    Memory.wf [(0x300, 0)] = false ∧ Memory.wf [(0x301, 1), (0x300, 1)] = false ∧ Memory.wf [(0x1000, 1)] = false ∧
    Memory.wf [(0x300, 1), (0xFFF, 1)] = true := by decide

/-- No ill-formed instruction can be written down: the operand types hold exactly the field values. -/
theorem test_every_instruction_is_wellFormed (i : Instr) : i.wellFormed = true := by
  cases i <;> simp only [Instr.wellFormed, Instr.mnemonic, Instr.format] <;> decide

/-- With the default font, memory after reset lists nothing (R37). -/
theorem test_afterReset_lists_nothing : Memory.afterReset Config.specVectors.font = [] := by decide

/-! One step of each instruction, from the vectors of `95_test_vectors.md` section 2. -/

theorem test_cls : (after 0x00E0 { State.reset with pixels := Screen.toggle (Screen.toggle Screen.blank 0 0) 63 31 }).map
    (fun t => (t.pixels, t.drawPending)) = some (Screen.blank, true) := by decide

theorem test_ret : (after 0x00EE { State.reset with stack := (State.reset.stack.set 0 0x0204).set 1 0x0ABC, stackIndex := 2 }).map
    (fun t => (t.pc, t.stackIndex, t.stack[1])) = some (0x0ABC, 1, 0x0ABC) := by decide

theorem test_ret_underflow : (after 0x00EE State.reset).map (fun t => (t.pc, t.report)) = some (0x0200, .err (.stackUnderflow 0x0200)) := by decide

theorem test_jp : (after 0x1ABC State.reset).map State.pc = some 0x0ABC := by decide

theorem test_call : (after 0x2ABC { State.reset with stackIndex := 15 }).map (fun t => (t.pc, t.stackIndex, t.stack[15])) =
    some (0x0ABC, 16, 0x0202) := by decide

theorem test_call_overflow : (after 0x2ABC { State.reset with stackIndex := 16 }).map (fun t => (t.pc, t.report)) =
    some (0x0200, .err (.stackOverflow 0x0200)) := by decide

theorem test_se_imm : (after 0x3A42 (withRegs [(10, 0x42)])).map State.pc = some 0x0204 ∧
    (after 0x3A42 (withRegs [(10, 0x43)])).map State.pc = some 0x0202 := by decide

theorem test_sne_imm : (after 0x4A42 (withRegs [(10, 0x42)])).map State.pc = some 0x0202 ∧
    (after 0x4A42 (withRegs [(10, 0x43)])).map State.pc = some 0x0204 := by decide

theorem test_se_reg : (after 0x5AB0 (withRegs [(10, 7), (11, 7)])).map State.pc = some 0x0204 ∧
    (after 0x5AB0 (withRegs [(10, 7), (11, 8)])).map State.pc = some 0x0202 := by decide

theorem test_sne_reg : (after 0x9AB0 (withRegs [(10, 7), (11, 7)])).map State.pc = some 0x0202 ∧
    (after 0x9AB0 (withRegs [(10, 7), (11, 8)])).map State.pc = some 0x0204 := by decide

theorem test_ld_imm : (after 0x6005 State.reset).map (·.reg 0) = some 5 := by decide

theorem test_add_imm_no_flag : (after 0x7305 (withRegs [(3, 0xFE)])).map (fun t => (t.reg 3, t.reg 15)) = some (3, 0) := by decide

theorem test_ld_reg : (after 0x8010 (withRegs [(1, 0xAB)])).map (·.reg 0) = some 0xAB := by decide

theorem test_or : (after 0x8011 (withRegs [(0, 0xF0), (1, 0x0C)])).map (·.reg 0) = some 0xFC := by decide

theorem test_and : (after 0x8012 (withRegs [(0, 0xFC), (1, 0x3F)])).map (·.reg 0) = some 0x3C := by decide

theorem test_xor : (after 0x8013 (withRegs [(0, 0x3C), (1, 0xFF)])).map (·.reg 0) = some 0xC3 := by decide

theorem test_add_carry : (after 0x8AB4 (withRegs [(10, 0xFF), (11, 1)])).map (fun t => (t.reg 10, t.reg 15)) = some (0, 1) := by decide

theorem test_add_no_carry_at_255 : (after 0x8AB4 (withRegs [(10, 0xFF), (15, 1)])).map (fun t => (t.reg 10, t.reg 15)) = some (0xFF, 0) := by decide

theorem test_sub_borrow : (after 0x8AB5 (withRegs [(11, 1), (15, 1)])).map (fun t => (t.reg 10, t.reg 15)) = some (0xFF, 0) := by decide

theorem test_sub_equal : (after 0x8AB5 (withRegs [(10, 0x20), (11, 0x20)])).map (fun t => (t.reg 10, t.reg 15)) = some (0, 1) := by decide

theorem test_shr_into_vf : (after 0x8FB6 (withRegs [(15, 3)])).map (·.reg 15) = some 1 := by decide

theorem test_shr_vy : (after 0x8AB6 { withRegs [(10, 5), (11, 0xF0)] with config := { Config.specVectors with shiftSource := .vy } }).map
    (fun t => (t.reg 10, t.reg 11, t.reg 15)) = some (0x78, 0xF0, 0) := by decide

theorem test_subn : (after 0x8AB7 (withRegs [(10, 0x20), (11, 0x10), (15, 1)])).map (fun t => (t.reg 10, t.reg 15)) = some (0xF0, 0) := by decide

theorem test_shl : (after 0x8ABE (withRegs [(10, 0xC1), (11, 1)])).map (fun t => (t.reg 10, t.reg 15)) = some (0x82, 1) := by decide

theorem test_shl_vy : (after 0x8ABE { withRegs [(10, 0x41), (11, 0x80)] with config := { Config.specVectors with shiftSource := .vy } }).map
    (fun t => (t.reg 10, t.reg 15)) = some (0, 1) := by decide

theorem test_ld_i : (after 0xA000 (withI 0x1234 [])).map State.i = some 0 := by decide

theorem test_jp_v0_unreduced : (after 0xBFFF (withRegs [(0, 0xFF)])).map State.pc = some 0x10FE := by decide

theorem test_rnd : (afterOp (.step 0xB7) ({ State.reset with memory := [(0x200, 0xC1), (0x201, 0x0F)] })).map
    (fun t => (t.reg 1, t.rnd, t.drawCount)) = some (7, none, 1) := by decide

theorem test_drw_glyph_zero : (after 0xD015 (withI 0x050 [])).map (fun t => (t.pixels[0].toList.take 5, t.pixels[1].toList.take 5, t.reg 15)) =
    some ([true, true, true, true, false], [true, false, false, true, false], 0) := by decide

theorem test_drw_rightmost_bit : (after 0xD011 { withI 0xFFF [(0, 0x38)] with memory := [(0xFFF, 1)] }).map
    (fun t => (Screen.get t.pixels 63 0, Screen.get t.pixels 56 0)) = some (true, false) := by decide

theorem test_skp_low_nibble : (after 0xE59E { withRegs [(5, 0x1A)] with keys := sample [10] }).map State.pc = some 0x0204 := by decide

theorem test_sknp : (after 0xE5A1 { withRegs [(5, 0x0A)] with keys := sample [10] }).map State.pc = some 0x0202 := by decide

theorem test_ld_from_dt : (after 0xF307 { State.reset with delayTimer := 0x2A }).map (·.reg 3) = some 0x2A := by decide

theorem test_ld_key : (after 0xF40A State.reset).map (fun t => (t.awaitingKey, t.awaitTargetRegister, t.pc)) = some (true, 4, 0x0202) := by decide

theorem test_ld_dt : (after 0xF315 (withRegs [(3, 0x3C)])).map State.delayTimer = some 0x3C := by decide

theorem test_ld_st : (after 0xF318 (withRegs [(3, 5)])).map State.soundTimer = some 5 := by decide

theorem test_add_i_wraps : (after 0xF21E (withI 0xFFFF [(2, 2)])).map (fun t => (t.i, t.reg 15)) = some (1, 0) := by decide

theorem test_ld_f_unmasked : (after 0xF029 (withRegs [(0, 0xFF)])).map State.i = some 0x054B := by decide

theorem test_ld_b : (after 0xF533 (withI 0x0FFD [(5, 0xC7)])).map (fun t => t.memory.readBytes 0xFFD 3) = some [1, 9, 9] := by decide

theorem test_ld_b_out_of_range : (after 0xF533 (withI 0x0FFE [(5, 0xC7)])).map (fun t => (t.memory.read 0xFFE, t.report)) =
    some (0, .err (.memoryOutOfRange 0x0200 0x1000)) := by decide

theorem test_st_regs : (after 0xF255 (withI 0x0300 [(0, 0x11), (1, 0x22), (2, 0x33), (3, 0x44)])).map
    (fun t => (t.memory.readBytes 0x300 4, t.i)) = some ([0x11, 0x22, 0x33, 0], 0x0300) := by decide

theorem test_st_regs_all_or_nothing : (after 0xF155 (withI 0x0FFF [(0, 0x11), (1, 0x22)])).map
    (fun t => (t.memory.read 0xFFF, t.pc, t.report)) = some (0, 0x0200, .err (.memoryOutOfRange 0x0200 0x1000)) := by decide

theorem test_ld_regs : (after 0xF265 { withI 0x0300 [(3, 0x44)] with memory := [(0x300, 0x11), (0x301, 0x22), (0x302, 0x33), (0x303, 0x99)] }).map
    (fun t => (t.reg 0, t.reg 1, t.reg 2, t.reg 3)) = some (0x11, 0x22, 0x33, 0x44) := by decide

theorem test_unknown : (after 0x8AB8 State.reset).map (fun t => (t.pc, t.report)) = some (0x0202, .err (.unknownOpcode 0x0200 0x8AB8)) := by decide

/-! Host operations, from section 2.9. -/

theorem test_tick_stops_at_zero : (afterOp .tick { State.reset with delayTimer := 1 }).map (fun t => (t.delayTimer, t.soundTimer)) = some (0, 0) := by
  decide

theorem test_setKeys_lowest : (afterOp (.setKeys (sample [2, 5])) { State.reset with awaitingKey := true, awaitTargetRegister := 1 }).map
    (fun t => (t.reg 1, t.awaitingKey, t.keys)) = some (2, false, sample [2, 5]) := by decide

theorem test_setKeys_held : (afterOp (.setKeys (sample [9])) { State.reset with awaitingKey := true, keys := sample [9] }).map
    (fun t => (t.awaitingKey, t.keys)) = some (true, sample [9]) := by decide

theorem test_ackDraw : (afterOp .ackDraw { State.reset with drawPending := true }).map State.drawPending = some false := by decide

theorem test_loadProgram : (afterOp (.loadProgram [0x60, 0x05, 0x70, 0x03]) State.reset).map (fun t => (t.memory.readBytes 0x200 4, t.pc)) =
    some ([0x60, 0x05, 0x70, 0x03], 0x0200) := by decide

/-- R234, D31: a Tick that changed nothing still came between. -/
theorem test_loadProgram_after_tick : (afterOp .tick State.reset).map (fun t => (step (t.setInputs [.loadProgram [0x60]])) matches .refused .loadNotAfterReset) =
    some true := by decide

/-- The numeric codes of R250. -/
theorem test_error_codes : [Report.ok, .idle, .err (.unknownOpcode 0 0), .err (.stackOverflow 0), .err (.stackUnderflow 0), .err (.memoryOutOfRange 0 0)].map
    Report.code = [some 0, some 0, some 1, some 2, some 3, some 4] := by decide

theorem test_reset : (afterOp .reset { withI 0x0300 [(3, 4)] with pc := 0x0ABC, memory := [(0x50, 1), (0x300, 7)] }).map
    (fun t => (t.pc, t.memory, t.reg 3)) = some (0x0200, [], 0) := by decide

/-- R282: with no program loaded the machine runs through zeroed memory. -/
theorem test_first_step_of_reset : (match step State.reset with | .next t => some (t.pc, t.report) | _ => none) =
    some (0x0202, .err (.unknownOpcode 0x0200 0x0000)) := by decide

/-! Witnesses: for every statement with hypotheses, values that meet them, each clause at a boundary of its range. -/

theorem witness_encodings :
    (0x1FFF : Word) &&& 0xF000 = 0x1000 ∧ (0x2000 : Word) &&& 0xF000 = 0x2000 ∧ (0x3FFF : Word) &&& 0xF000 = 0x3000 ∧
    (0x4000 : Word) &&& 0xF000 = 0x4000 ∧ (0x5FF0 : Word) &&& 0xF00F = 0x5000 ∧ (0x9000 : Word) &&& 0xF00F = 0x9000 ∧
    (0x6FFF : Word) &&& 0xF000 = 0x6000 ∧ (0x7FFF : Word) &&& 0xF000 = 0x7000 ∧ (0xAFFF : Word) &&& 0xF000 = 0xA000 ∧
    (0xBFFF : Word) &&& 0xF000 = 0xB000 ∧ (0xCFFF : Word) &&& 0xF000 = 0xC000 ∧ (0xDFFF : Word) &&& 0xF000 = 0xD000 := by decide

theorem witness_encodings_alu :
    (0x8FF0 : Word) &&& 0xF00F = 0x8000 ∧ (0x8FF1 : Word) &&& 0xF00F = 0x8001 ∧ (0x8FF2 : Word) &&& 0xF00F = 0x8002 ∧
    (0x8FF3 : Word) &&& 0xF00F = 0x8003 ∧ (0x8FF4 : Word) &&& 0xF00F = 0x8004 ∧ (0x8FF5 : Word) &&& 0xF00F = 0x8005 ∧
    (0x8FF6 : Word) &&& 0xF00F = 0x8006 ∧ (0x8FF7 : Word) &&& 0xF00F = 0x8007 ∧ (0x8FFE : Word) &&& 0xF00F = 0x800E := by decide

theorem witness_encodings_x :
    (0xEF9E : Word) &&& 0xF0FF = 0xE09E ∧ (0xE0A1 : Word) &&& 0xF0FF = 0xE0A1 ∧ (0xFF07 : Word) &&& 0xF0FF = 0xF007 ∧
    (0xFF0A : Word) &&& 0xF0FF = 0xF00A ∧ (0xFF15 : Word) &&& 0xF0FF = 0xF015 ∧ (0xFF18 : Word) &&& 0xF0FF = 0xF018 ∧
    (0xFF1E : Word) &&& 0xF0FF = 0xF01E ∧ (0xFF29 : Word) &&& 0xF0FF = 0xF029 ∧ (0xFF33 : Word) &&& 0xF0FF = 0xF033 ∧
    (0xFF55 : Word) &&& 0xF0FF = 0xF055 ∧ (0xFF65 : Word) &&& 0xF0FF = 0xF065 := by decide

theorem witness_SkipsOnRegisters : (0x5001 : Word) &&& 0xF000 = 0x5000 ∧ (0x900F : Word) &&& 0xF000 = 0x9000 ∧
    (0x5001 : Word) &&& 0x000F ≠ 0 ∧ (0x900F : Word) &&& 0x000F ≠ 0 := by decide

theorem witness_RetPopsOrUnderflows :
    (∃ s : State, s.stackIndex.val = (0 : Fin 16).val + 1) ∧ (∃ s : State, s.stackIndex.val = (15 : Fin 16).val + 1) ∧
    ∃ s : State, s.pc = 0x0200 + 2 ∧ s.stackIndex.val = 0 :=
  ⟨⟨{ State.reset with stackIndex := 1 }, rfl⟩, ⟨{ State.reset with stackIndex := 16 }, rfl⟩, ⟨entry, rfl, rfl⟩⟩

theorem witness_CallPushesOrOverflows :
    (∃ s : State, s.stackIndex.val = 15 ∧ s.stackIndex.val < 16) ∧ ∃ s : State, s.pc = 0x0200 + 2 ∧ s.stackIndex.val = 16 :=
  ⟨⟨{ State.reset with stackIndex := 15 }, rfl, by decide⟩, ⟨{ entry with stackIndex := 16 }, rfl, rfl⟩⟩

theorem witness_CallThenRetResumesAfterTheCall : ∃ s t t' : State, s.stackIndex.val < 16 ∧ exec (.call 0xABC) s = .next t ∧
    t'.stack = t.stack ∧ t'.stackIndex = t.stackIndex :=
  ⟨entry, _, _, by decide, rfl, rfl, rfl⟩

theorem witness_RandomMasksTheDraw : ∃ s : State, s.rnd = some 0xB7 := ⟨{ entry with rnd := some 0xB7 }, rfl⟩

/-- The premise of the three statements about a completed DXYN, N = 0 and N = 15. -/
theorem witness_DrawTogglesExactlyTheSpriteCells :
    (∃ s : State, s.i = 0xFFFF ∧ ((0 : Rows).val = 0 ∨ s.i.toNat + (0 : Rows).val ≤ 0x1000)) ∧
    ∃ s : State, s.i = 0x0FF1 ∧ ((15 : Rows).val = 0 ∨ s.i.toNat + (15 : Rows).val ≤ 0x1000) :=
  ⟨⟨{ entry with i := 0xFFFF }, rfl, .inl rfl⟩, ⟨{ entry with i := 0x0FF1 }, rfl, .inr (by decide)⟩⟩

theorem witness_DrawCollisionFlag :
    (∃ s : State, ((1 : Rows).val = 0 ∨ s.i.toNat + (1 : Rows).val ≤ 0x1000) ∧ s.config.collisionFlag = false) ∧
    ∃ s : State, ((1 : Rows).val = 0 ∨ s.i.toNat + (1 : Rows).val ≤ 0x1000) ∧ s.config.collisionFlag = true :=
  ⟨⟨{ entry with config := { Config.specVectors with collisionFlag := false } }, .inr (by decide), rfl⟩, ⟨entry, .inr (by decide), rfl⟩⟩

theorem witness_DrawOutOfRangeIsRejected :
    (∃ s : State, s.pc = 0x0200 + 2 ∧ 0 < (2 : Rows).val ∧ s.i = 0x0FFF ∧ 0x0FFF < s.i.toNat + (2 : Rows).val - 1) ∧
    ∃ s : State, s.pc = 0x0200 + 2 ∧ 0 < (1 : Rows).val ∧ s.i = 0x1000 ∧ 0x0FFF < s.i.toNat + (1 : Rows).val - 1 :=
  ⟨⟨{ entry with i := 0x0FFF }, rfl, by decide, rfl, by decide⟩, ⟨{ entry with i := 0x1000 }, rfl, by decide, rfl, by decide⟩⟩

theorem witness_DrawTwiceRestoresTheScreen :
    (∃ s : State, ((5 : Rows).val = 0 ∨ s.i.toNat + (5 : Rows).val ≤ 0x1000) ∧
      (s.config.collisionFlag = false ∨ ((15 : Reg) ≠ 15 ∧ (15 : Reg) ≠ 15))) ∧
    ∃ s t : State, ((5 : Rows).val = 0 ∨ s.i.toNat + (5 : Rows).val ≤ 0x1000) ∧
      (s.config.collisionFlag = false ∨ ((0 : Reg) ≠ 15 ∧ (1 : Reg) ≠ 15)) ∧ exec (.drw 0 1 5) s = .next t ∧
      s.config.collisionFlag = true ∧
      ∃ px py, px < 64 ∧ py < 32 ∧ s.spriteAt 0 1 5 px py = true ∧ Screen.get t.pixels px py = true :=
  ⟨⟨{ entry with config := { Config.specVectors with collisionFlag := false } }, .inr (by decide), .inl rfl⟩,
   ⟨{ entry with i := 0x050 }, _, .inr (by decide), .inr (by decide), rfl, rfl, 0, 0, by decide, by decide, by decide, by decide⟩⟩

theorem witness_SkipsOnKeys :
    (∃ s : State, (15 : Fin 16).val = (s.reg 5).toNat % 16 ∧ s.reg 5 = 0xFF) ∧ ∃ s : State, (0 : Fin 16).val = (s.reg 5).toNat % 16 :=
  ⟨⟨withRegs [(5, 0xFF)], by decide, by decide⟩, ⟨withRegs [], by decide⟩⟩

theorem witness_GlyphAddressLookup : ∃ s : State, s.reg 0 = 0xFF ∧ s.config.glyphStride = 5 ∧
    0x050 + s.config.glyphStride * (s.reg 0).toNat < 65536 :=
  ⟨withRegs [(0, 0xFF)], by decide, rfl, by decide⟩

theorem witness_BcdStoresThreeDigits :
    (∃ s : State, s.memory.wf = true ∧ s.i = 0x0FFD ∧ s.i.toNat + 2 ≤ 0x0FFF) ∧
    ∃ s : State, s.pc = 0x0200 + 2 ∧ s.i = 0x0FFE ∧ 0x0FFF < s.i.toNat + 2 :=
  ⟨⟨{ entry with i := 0x0FFD }, by decide, rfl, by decide⟩, ⟨{ entry with i := 0x0FFE }, rfl, rfl, by decide⟩⟩

/-- The premises of FX55, FX65 and their round trip, with X = 15 and X = 1. -/
theorem witness_BlockStoreCopiesRegisters :
    (∃ s : State, s.memory.wf = true ∧ s.i = 0x0FF0 ∧ s.i.toNat + (15 : Reg).val ≤ 0x0FFF ∧ (15 : Reg) ≤ 15) ∧
    ∃ s : State, s.pc = 0x0200 + 2 ∧ s.i = 0x0FFF ∧ 0x0FFF < s.i.toNat + (1 : Reg).val :=
  ⟨⟨{ entry with i := 0x0FF0 }, by decide, rfl, by decide, by decide⟩, ⟨{ entry with i := 0x0FFF }, rfl, rfl, by decide⟩⟩

theorem witness_StepRunsTheDecodedInstruction :
    (∃ s : State, s.awaitingKey = false ∧ s.pc.toNat ≤ 0x0FFE ∧ Instr.cls.wellFormed = true ∧
      decode [s.memory.read s.pc.toNat, s.memory.read (s.pc.toNat + 1)] = .ok (.cls, []) ∧ s.inputs = []) ∧
    ∃ s t : State, s.awaitingKey = false ∧ s.pc = 0x0FFE ∧ s.pc.toNat ≤ 0x0FFE ∧ Instr.cls.wellFormed = true ∧
      decode [s.memory.read s.pc.toNat, s.memory.read (s.pc.toNat + 1)] = .ok (.cls, []) ∧ s.inputs = [.step 7] ∧
      exec .cls { s with pc := s.pc + 2, report := .ok, justReset := false, inputs := [], rnd := some 7 } = .next t :=
  ⟨⟨State.reset.withFetchWord 16 0x00E0, by decide, by decide, by decide, by decide, rfl⟩,
   ⟨{ State.reset with pc := 0x0FFE, memory := [(0xFFF, 0xE0)], inputs := [.step 7] }, _, rfl, rfl, by decide, by decide, by decide, rfl, rfl⟩⟩

theorem witness_FetchOutOfRangeIsReported :
    (∃ s : State, s.stepPending [] ∧ s.awaitingKey = false ∧ s.pc = 0x0FFF ∧ 0x0FFE < s.pc.toNat) ∧
    ∃ s : State, s.stepPending [.tick] ∧ s.awaitingKey = false ∧ s.pc = 0x1000 ∧ 0x0FFE < s.pc.toNat :=
  ⟨⟨{ State.reset with pc := 0x0FFF }, .inl ⟨rfl, rfl⟩, rfl, rfl, by decide⟩,
   ⟨{ State.reset with pc := 0x1000, inputs := [.step 7, .tick] }, .inr ⟨rfl, 7, rfl⟩, rfl, rfl, by decide⟩⟩

theorem witness_AwaitingStepIsIdle :
    (∃ s : State, s.stepPending [] ∧ s.awaitingKey = true) ∧ ∃ s : State, s.stepPending [.tick] ∧ s.awaitingKey = true ∧ s.pc = 0x1000 :=
  ⟨⟨{ State.reset with awaitingKey := true }, .inl ⟨rfl, rfl⟩, rfl⟩,
   ⟨{ State.reset with awaitingKey := true, pc := 0x1000, inputs := [.step 7, .tick] }, .inr ⟨rfl, 7, rfl⟩, rfl, rfl⟩⟩

theorem witness_UnknownOpcodeAdvances :
    (∃ s : State, s.stepPending [] ∧ s.awaitingKey = false ∧ s.pc = 0x0FFE ∧ s.pc.toNat ≤ 0x0FFE ∧
      (0x0000 : Word).toNat = (s.memory.read s.pc.toNat).toNat * 256 + (s.memory.read (s.pc.toNat + 1)).toNat ∧
      Word.recognised 0x0000 = false) ∧
    ∃ s : State, s.stepPending [.tick] ∧ s.awaitingKey = false ∧ s.pc.toNat ≤ 0x0FFE ∧
      (0x0000 : Word).toNat = (s.memory.read s.pc.toNat).toNat * 256 + (s.memory.read (s.pc.toNat + 1)).toNat ∧
      Word.recognised 0x0000 = false :=
  ⟨⟨{ State.reset with pc := 0x0FFE }, .inl ⟨rfl, rfl⟩, rfl, rfl, by decide, by decide, by decide⟩,
   ⟨State.reset.setInputs [.step 7, .tick], .inr ⟨rfl, 7, rfl⟩, rfl, by decide, by decide, by decide⟩⟩

theorem witness_RejectedStepRepeats :
    (∃ s t : State, s.stepPending [] ∧ step s = .next t ∧ t.report = .err (.stackUnderflow 0x0200) ∧
      (∀ a op, Fault.stackUnderflow 0x0200 ≠ .unknownOpcode a op) ∧ { t with inputs := [] }.stepPending []) ∧
    ∃ s t : State, s.stepPending [.tick] ∧ step s = .next t ∧ t.report = .err (.stackUnderflow 0x0200) ∧
      (∀ a op, Fault.stackUnderflow 0x0200 ≠ .unknownOpcode a op) ∧ { t with inputs := [.step 8] }.stepPending [] :=
  ⟨⟨State.reset.withFetchWord 16 0x00EE, _, .inl ⟨rfl, rfl⟩, rfl, by decide, by simp, .inl ⟨rfl, rfl⟩⟩,
   ⟨(State.reset.withFetchWord 16 0x00EE).setInputs [.step 7, .tick], _, .inr ⟨rfl, 7, rfl⟩, rfl, by decide, by simp, .inr ⟨rfl, 8, rfl⟩⟩⟩

theorem witness_OnlyALateLoadIsRefused :
    (∃ s : State, s.inputs = [.loadProgram [0x60]] ∧ (s.setInputs []).isAfterReset = true) ∧
    (∃ s : State, s.inputs = [.loadProgram [0x60]] ∧ (s.setInputs []).isAfterReset = false) ∧
    ∃ s t : State, s.inputs = [.reset] ∧ step s = .next t ∧ t.isAfterReset = true :=
  ⟨⟨State.reset.setInputs [.loadProgram [0x60]], rfl, by decide⟩,
   ⟨State.reset.leaveReset.setInputs [.loadProgram [0x60]], rfl, by decide⟩,
   ⟨entry.setInputs [.reset], _, rfl, rfl, by decide⟩⟩

theorem witness_JumpToSelfIsAFixedPoint :
    (∃ s : State, s.stepPending [] ∧ s.ended = true) ∧ ∃ s : State, s.stepPending [.tick] ∧ s.ended = true :=
  ⟨⟨State.reset.withFetchWord 16 0x1200, .inl ⟨rfl, rfl⟩, by decide⟩,
   ⟨(State.reset.withFetchWord 16 0x1200).setInputs [.step 7, .tick], .inr ⟨rfl, 7, rfl⟩, by decide⟩⟩

theorem witness_StoredCodeIsFetchedNext : ∃ s : State, s.stepPending [.tick] ∧ s.memory.wf = true ∧ s.awaitingKey = false ∧ 1 ≤ (1 : Reg).val ∧
    s.pc.toNat ≤ 0x0FFC ∧ decodeWord s.fetchWord = .ok (.stRegs 1) ∧ s.i = s.pc + 2 ∧ s.i.toNat + (1 : Reg).val ≤ 0x0FFF :=
  ⟨((withI 0x0202 [(0, 0x12), (1, 0x0A)]).withFetchWord 16 0xF155).setInputs [.step 7, .tick], .inr ⟨rfl, 7, rfl⟩,
   by decide, rfl, by decide, by decide, by decide, by decide, by decide⟩

theorem witness_EveryStepKeepsTheInvariant : ∃ s t : State, s.Inv ∧ step s = .next t :=
  ⟨State.reset, _, ⟨by decide, by decide, by decide, rfl⟩, rfl⟩

theorem witness_OnlyFlagWritersTouchVF :
    (∃ s t : State, exec (.addReg 0 1) s = .next t) ∧ (∃ s t : State, exec (.drw 0 1 5) s = .next t ∧ s.config.collisionFlag = false) ∧
    (∃ s t : State, exec (.ldRegs 14) s = .next t ∧ (14 : Reg) ≠ 15) ∧ ∃ s t : State, exec (.ldF 0) s = .next t :=
  ⟨⟨entry, _, rfl⟩, ⟨{ entry with config := { Config.specVectors with collisionFlag := false } }, _, rfl, rfl⟩,
   ⟨entry, _, rfl, by decide⟩, ⟨entry, _, rfl⟩⟩

theorem witness_OnlyAKeyEdgeWakesTheCore :
    (∃ s t : State, s.awaitingKey = true ∧ s.inputs = [.setKeys (sample [9])] ∧ step s = .next t ∧ t.awaitingKey = false) ∧
    ∃ s t : State, s.awaitingKey = true ∧ s.inputs = [.reset] ∧ step s = .next t ∧ t.awaitingKey = false :=
  ⟨⟨{ State.reset with awaitingKey := true, inputs := [.setKeys (sample [9])] }, _, rfl, rfl, rfl, by decide⟩,
   ⟨{ State.reset with awaitingKey := true, inputs := [.reset] }, _, rfl, rfl, rfl, rfl⟩⟩

theorem witness_OnlyKeyWaitSuspends : ∃ s t : State, s.awaitingKey = false ∧ step s = .next t ∧ t.awaitingKey = true :=
  ⟨State.reset.withFetchWord 16 0xF40A, _, rfl, rfl, by decide⟩

theorem witness_TimersRiseOnlyByTheirWriters :
    (∃ s t : State, step s = .next t ∧ s.delayTimer.toNat < t.delayTimer.toNat) ∧
    ∃ s t : State, step s = .next t ∧ s.soundTimer.toNat < t.soundTimer.toNat :=
  ⟨⟨(withRegs [(3, 0x3C)]).withFetchWord 16 0xF315, _, rfl, by decide⟩, ⟨(withRegs [(3, 0x3C)]).withFetchWord 16 0xF318, _, rfl, by decide⟩⟩

theorem witness_DrawSignalSetAndClearedOnlyByItsOwners :
    (∃ s t : State, step s = .next t ∧ s.drawPending = true ∧ t.drawPending = false) ∧
    ∃ s t : State, step s = .next t ∧ s.drawPending = false ∧ t.drawPending = true :=
  ⟨⟨{ State.reset with drawPending := true, inputs := [.ackDraw] }, _, rfl, rfl, rfl⟩,
   ⟨State.reset.withFetchWord 16 0x00E0, _, rfl, rfl, by decide⟩⟩

theorem witness_DrawInfluencesOnlyRandom : ∃ s : State, ∀ x nn, decodeWord s.fetchWord ≠ .ok (.rnd x nn) :=
  ⟨State.reset.withFetchWord 16 0x00E0, fun x nn h => by
    rw [show decodeWord (State.reset.withFetchWord 16 0x00E0).fetchWord = .ok .cls by decide] at h; cases h⟩

theorem witness_host_operations : (∃ s : State, s.inputs = [.tick]) ∧ (∃ s : State, s.inputs = [.ackDraw]) ∧ ∃ s : State, s.inputs = [.reset] :=
  ⟨⟨State.reset.setInputs [.tick], rfl⟩, ⟨State.reset.setInputs [.ackDraw], rfl⟩, ⟨State.reset.setInputs [.reset], rfl⟩⟩

theorem witness_SetKeysStoresTheSample :
    (∃ s : State, s.inputs = [.setKeys (sample [3, 7])] ∧ s.awaitingKey = false) ∧
    ∃ s : State, s.inputs = [.setKeys (sample [9])] ∧ s.awaitingKey = true ∧ ∀ k : Fin 16, (sample [9])[k] = true → s.keys[k] = true :=
  ⟨⟨State.reset.setInputs [.setKeys (sample [3, 7])], rfl, rfl⟩,
   ⟨{ State.reset with awaitingKey := true, keys := sample [9], inputs := [.setKeys (sample [9])] }, rfl, rfl, by decide⟩⟩

theorem witness_LowestKeyEdgeResolvesTheWait : ∃ s : State, s.inputs = [.setKeys (sample [5, 9, 15])] ∧ s.awaitingKey = true ∧
    s.awaitTargetRegister = 15 ∧ (sample [5, 9, 15])[(9 : Fin 16)] = true ∧ s.keys[(9 : Fin 16)] = false ∧
    ∀ j : Fin 16, j < 9 → (sample [5, 9, 15])[j] = true → s.keys[j] = true :=
  ⟨{ State.reset with awaitingKey := true, awaitTargetRegister := 15, keys := sample [5], inputs := [.setKeys (sample [5, 9, 15])] },
   rfl, rfl, rfl, by decide, by decide, by decide⟩

theorem witness_LoadProgramPlacesTheBytes :
    (∃ s : State, s.inputs = [.loadProgram (List.replicate 3584 1)] ∧ (s.setInputs []).isAfterReset = true ∧
      (List.replicate 3584 (1 : Byte)).length ≤ 3584) ∧
    ∃ s : State, s.inputs = [.loadProgram (List.replicate 3585 1)] ∧ (s.setInputs []).isAfterReset = true ∧
      3584 < (List.replicate 3585 (1 : Byte)).length :=
  ⟨⟨State.reset.setInputs [.loadProgram (List.replicate 3584 1)], rfl, by decide, by rw [List.length_replicate]⟩,
   ⟨State.reset.setInputs [.loadProgram (List.replicate 3585 1)], rfl, by decide, by rw [List.length_replicate]; decide⟩⟩

theorem witness_FrameOfFourIsTheReferenceFrame :
    (∃ s : State, s.inputs = [] ∧ s.rnd = none ∧ (s.setKeys (sample [])).awaitingKey = false) ∧
    ∃ s : State, s.inputs = [] ∧ s.rnd = none ∧ (s.setKeys (sample [])).awaitingKey = true :=
  ⟨⟨State.reset, rfl, rfl, by decide⟩, ⟨{ State.reset with awaitingKey := true }, rfl, rfl, by decide⟩⟩

theorem witness_encoding_statements : Instr.wellFormed (.drw 15 15 15) = true ∧ decodeWord 0xF265 = .ok (.ldRegs 2) ∧
    Word.recognised 0xF265 = true := by decide

end Sys2Proof.Tests
end

/-! SUPPORT. What the next state of each shared operation and of one step can be: one inversion lemma each, from which the statements about the
state (`10_state.md`) follow. -/

namespace Sys2Proof.Machine

/-! Inversions. -/

/-- A guarded instruction completes with its own next state, or is rejected. -/
theorem guardError_next {n : Nat} {s t u : State} (h : guardError (s.rangeError n) s (.next u) = .next t) :
    t = u ∨ ∃ f, raise f s = .next t := by
  rcases guardError_cases s n (.next u) with ⟨e, -⟩ | ⟨e, -⟩
  · exact .inl (Host.Outcome.next.inj (e.symm.trans h)).symm
  · exact .inr ⟨_, e.symm.trans h⟩

/-- 00EE pops its return address into `pc`, or is rejected. -/
theorem exec_ret_next {s t : State} (h : exec .ret s = .next t) :
    (∃ hs : 0 < s.stackIndex.val,
      t = (s.setStack s.stack ⟨s.stackIndex.val - 1, by omega⟩).setPc (s.stack[s.stackIndex.val - 1]'(by omega))) ∨
    ∃ f, raise f s = .next t := by
  by_cases hs : 0 < s.stackIndex.val
  · rw [exec_ret_some hs] at h
    exact .inl ⟨hs, (Host.Outcome.next.inj h).symm⟩
  · exact .inr ⟨_, (exec_ret_none hs).symm.trans h⟩

/-- 2NNN pushes `pc` and jumps, or is rejected. -/
theorem exec_call_next {nnn : Addr} {s t : State} (h : exec (.call nnn) s = .next t) :
    (∃ hs : s.stackIndex.val < 16,
      t = (s.setStack (s.stack.set s.stackIndex.val s.pc hs) ⟨s.stackIndex.val + 1, by omega⟩).setPc nnn.zext16) ∨
    ∃ f, raise f s = .next t := by
  by_cases hs : s.stackIndex.val < 16
  · rw [exec_call_some hs] at h
    exact .inl ⟨hs, (Host.Outcome.next.inj h).symm⟩
  · exact .inr ⟨_, (exec_call_none hs).symm.trans h⟩

/-- The next states of one step, by the operation performed (R121): with nothing pending the model's own `Step` (log 1), else the host's first
pending operation, under the conditions in which it answers that state. -/
inductive StepsTo (s : State) : State → Prop
  | ownStep {t : State} (hi : s.inputs = []) (h : engineStep s.leaveReset = .next t) : StepsTo s t
  | hostStep {b : Byte} {rest : List HostOp} {u : State} (hi : s.inputs = .step b :: rest)
      (h : engineStep ((s.setInputs rest).leaveReset.setRnd (some b)) = .next u) : StepsTo s (u.setRnd none)
  | reset {rest : List HostOp} (hi : s.inputs = .reset :: rest) : StepsTo s (s.setInputs rest).afterReset
  | loadRefused {bytes : List Byte} {rest : List HostOp} (hi : s.inputs = .loadProgram bytes :: rest)
      (hr : (s.setInputs rest).isAfterReset = true) (hl : Config.progMax < bytes.length) :
      StepsTo s ((s.setInputs rest).setReport .loadRefused)
  | loaded {bytes : List Byte} {rest : List HostOp} (hi : s.inputs = .loadProgram bytes :: rest)
      (hr : (s.setInputs rest).isAfterReset = true) (hl : ¬ Config.progMax < bytes.length) :
      StepsTo s ((s.setInputs rest).leaveReset.setMemory (s.memory.writeBytes Config.progBase bytes))
  | setKeys {new : Vector Bool 16} {rest : List HostOp} (hi : s.inputs = .setKeys new :: rest) :
      StepsTo s ((s.setInputs rest).leaveReset.setKeys new)
  | tick {rest : List HostOp} (hi : s.inputs = .tick :: rest) : StepsTo s (s.setInputs rest).leaveReset.tick
  | ackDraw {rest : List HostOp} (hi : s.inputs = .ackDraw :: rest) : StepsTo s (s.setInputs rest).leaveReset.ackDraw

/-- `LoadProgram` answers a next state only on the state `Reset` left: refused with a report, or with the bytes placed (R234). -/
theorem loadProgram_next {s t : State} {bytes : List Byte} (h : s.loadProgram bytes = .next t) :
    s.isAfterReset = true ∧
      ((Config.progMax < bytes.length ∧ t = s.setReport .loadRefused) ∨
       (¬ Config.progMax < bytes.length ∧ t = s.leaveReset.setMemory (s.memory.writeBytes Config.progBase bytes))) := by
  unfold State.loadProgram at h
  cases hr : s.isAfterReset with
  | false => simp [hr] at h
  | true =>
    by_cases hl : Config.progMax < bytes.length <;> simp only [hr, hl, Bool.not_true, Bool.false_eq_true, if_true, if_false] at h
    · exact ⟨rfl, .inl ⟨hl, (Host.Outcome.next.inj h).symm⟩⟩
    · exact ⟨rfl, .inr ⟨hl, (Host.Outcome.next.inj h).symm⟩⟩

/-- Everything a step can answer as a next state. -/
theorem step_next {s t : State} (h : step s = .next t) : StepsTo s t := by
  cases hi : s.inputs with
  | nil => exact .ownStep hi ((step_nil hi).symm.trans h)
  | cons op rest =>
    rw [step_cons hi] at h
    cases op with
    | reset => cases h; exact .reset hi
    | loadProgram bytes =>
      obtain ⟨hr, ⟨hl, rfl⟩ | ⟨hl, rfl⟩⟩ := loadProgram_next h
      · exact .loadRefused hi hr hl
      · exact .loaded hi hr hl
    | setKeys new => cases h; exact .setKeys hi
    | step b =>
      obtain ⟨u, hu, rfl⟩ := stepWithDraw_next h
      exact .hostStep hi hu
    | tick => cases h; exact .tick hi
    | ackDraw => cases h; exact .ackDraw hi

end Sys2Proof.Machine

/-! The invariant of R43. -/

namespace Sys2Proof.Machine

/-- R43 (d), (f), and `pc` at most `top`: the invariant without the model's own draw, and with the bound on `pc` open, since an instruction
receives a smaller `pc` than it may leave. -/
structure State.Bounded (top : Nat) (s : State) : Prop where
  memory : s.memory.wf = true
  pc : s.pc.toNat ≤ top
  stack : ∀ k : Fin 16, k.val < s.stackIndex.val → s.stack[k].toNat ≤ 0x1000

theorem State.inv_iff (s : State) : s.Inv ↔ s.Bounded 0x10FE ∧ s.rnd = none :=
  ⟨fun ⟨hm, hp, hs, hr⟩ => ⟨⟨hm, hp, hs⟩, hr⟩, fun ⟨⟨hm, hp, hs⟩, hr⟩ => ⟨hm, hp, hs, hr⟩⟩

namespace State.Bounded

variable {s t : State} {a b : Nat}

/-- Only memory, `pc` and the stack matter. -/
theorem of_memory_stack_eq (hs : s.Bounded a) (hm : t.memory = s.memory) (hst : t.stack = s.stack) (hn : t.stackIndex = s.stackIndex)
    (hp : t.pc.toNat ≤ b) : t.Bounded b :=
  ⟨hm ▸ hs.memory, hp, fun k hk => hst ▸ hs.stack k (hn ▸ hk)⟩

/-- A change that touches neither memory nor the stack nor `pc`. -/
theorem of_memory_stack_pc_eq (hs : s.Bounded a) (hm : t.memory = s.memory) (hst : t.stack = s.stack) (hn : t.stackIndex = s.stackIndex)
    (hp : t.pc = s.pc) (hab : a ≤ b) : t.Bounded b :=
  hs.of_memory_stack_eq hm hst hn (hp ▸ hs.pc.trans hab)

theorem writeBytes (hs : s.Bounded a) (addr : Nat) (bs : List Byte) : (s.setMemory (s.memory.writeBytes addr bs)).Bounded a :=
  ⟨Memory.wf_writeBytes addr bs hs.memory, hs.pc, hs.stack⟩

theorem mono (hs : s.Bounded a) (hab : a ≤ b) : s.Bounded b := ⟨hs.memory, hs.pc.trans hab, hs.stack⟩

/-- A pop into `pc`: the entry read was valid. -/
theorem pop (hs : s.Bounded a) (hn : 0 < s.stackIndex.val) :
    ((s.setStack s.stack ⟨s.stackIndex.val - 1, by omega⟩).setPc (s.stack[s.stackIndex.val - 1]'(by omega))).Bounded 0x1000 where
  memory := hs.memory
  pc := hs.stack ⟨s.stackIndex.val - 1, by omega⟩ (Nat.sub_lt hn Nat.one_pos)
  stack k hk := hs.stack k (Nat.lt_of_lt_of_le hk (Nat.sub_le _ _))

/-- A push of `pc`: the new entry is the old `pc`, every other valid entry is an old one. -/
theorem push (hs : s.Bounded 0x1000) (hn : s.stackIndex.val < 16) {w : Word} (hw : w.toNat ≤ b) :
    ((s.setStack (s.stack.set s.stackIndex.val s.pc hn) ⟨s.stackIndex.val + 1, by omega⟩).setPc w).Bounded b where
  memory := hs.memory
  pc := hw
  stack k hk := by
    have hk : k.val < s.stackIndex.val + 1 := hk
    simp only [setPc_stack, setStack_stack, Fin.getElem_fin, Vector.getElem_set]
    split
    · exact hs.pc
    · exact hs.stack k (by omega)

end State.Bounded

/-! The values `pc` can take. -/

theorem toNat_pc_add_two {w : Word} (h : w.toNat ≤ 0x10FE) : (w + 2).toNat = w.toNat + 2 := by bv_omega

theorem toNat_zext16_addr_lt (nnn : Addr) : nnn.zext16.toNat < 0x1000 := by
  rw [BitVec.toNat_setWidth_of_le (by decide)]; exact nnn.isLt

/-- R181: the target of BNNN is the exact sum, at most 0xFF + 0xFFF. -/
theorem toNat_indexedTarget_le (b : Byte) (nnn : Addr) : (b.zext16 + nnn.zext16).toNat ≤ 0x10FE := by
  have := b.isLt; have := nnn.isLt
  rw [BitVec.toNat_add, BitVec.toNat_setWidth_of_le (by decide), BitVec.toNat_setWidth_of_le (by decide)]
  omega

/-- A skip adds at most 2 to `pc`. -/
theorem skipIf_bounded {s : State} (c : Bool) (hs : s.Bounded 0x1000) : (s.skipIf c).Bounded 0x10FE := by
  rw [skipIf_eq]
  refine hs.of_memory_stack_eq rfl rfl rfl ?_
  have hp := hs.pc
  cases c
  · exact hp.trans (by decide)
  · have e : (s.pc + 2).toNat = s.pc.toNat + 2 := toNat_pc_add_two (by omega)
    change (s.pc + 2).toNat ≤ _
    omega

/-- A rejected instruction puts `pc` back by 2, which it had been advanced by. -/
theorem raise_bounded {f : Fault} {s t : State} (h : raise f s = .next t) (hs : s.Bounded 0x1000) (h2 : 2 ≤ s.pc.toNat) :
    t.Bounded 0x10FE := by
  cases h
  refine hs.of_memory_stack_eq rfl rfl rfl ?_
  have hp := hs.pc
  change (s.pc - 2).toNat ≤ _
  bv_omega

theorem guardError_bounded {n : Nat} {s t u : State} (h : guardError (s.rangeError n) s (.next u) = .next t)
    (hs : s.Bounded 0x1000) (h2 : 2 ≤ s.pc.toNat) (hu : u.Bounded 0x1000) : t.Bounded 0x10FE := by
  obtain rfl | ⟨f, hf⟩ := guardError_next h
  · exact hu.mono (by decide)
  · exact raise_bounded hf hs h2

theorem setCollision_bounded {s : State} {a : Nat} (c : Bool) (hs : s.Bounded a) : (s.setCollision c).Bounded a := by
  rcases setCollision_cases s c with ⟨-, e⟩ | ⟨-, e⟩ <;> rw [e]
  · exact hs.of_memory_stack_pc_eq rfl rfl rfl rfl le_rfl
  · exact hs

/-- Every instruction keeps the bounds: it receives `pc = a + 2` with a an address it can be fetched from (R124, R125). -/
theorem exec_bounded {i : Instr} {s t : State} (h : exec i s = .next t) (hs : s.Bounded 0x1000) (h2 : 2 ≤ s.pc.toNat) :
    t.Bounded 0x10FE := by
  cases i
  case ret =>
    obtain ⟨hn, rfl⟩ | ⟨f, hf⟩ := exec_ret_next h
    · exact (hs.pop hn).mono (by decide)
    · exact raise_bounded hf hs h2
  case call nnn =>
    obtain ⟨hn, rfl⟩ | ⟨f, hf⟩ := exec_call_next h
    · exact hs.push hn ((toNat_zext16_addr_lt nnn).le.trans (by decide))
    · exact raise_bounded hf hs h2
  case jp nnn => cases h; exact hs.of_memory_stack_eq rfl rfl rfl ((toNat_zext16_addr_lt nnn).le.trans (by decide))
  case jpV0 nnn => cases h; exact hs.of_memory_stack_eq rfl rfl rfl (toNat_indexedTarget_le (s.reg 0) nnn)
  case seImm | sneImm | seReg | sneReg | skp | sknp => cases h; exact skipIf_bounded _ hs
  case drw x y n =>
    have hp : (s.setPixels (s.blitted x y n).1).Bounded 0x1000 := hs.of_memory_stack_pc_eq rfl rfl rfl rfl le_rfl
    exact guardError_bounded h hs h2 (setCollision_bounded _ hp)
  case ldB x => exact guardError_bounded h hs h2 (hs.writeBytes _ (decimalDigits (s.reg x)))
  case stRegs x => exact guardError_bounded h hs h2 (hs.writeBytes _ (s.regsUpTo x))
  case ldRegs x =>
    exact guardError_bounded (u := s.setRegs _) h hs h2 (hs.of_memory_stack_pc_eq rfl rfl rfl rfl le_rfl)
  all_goals cases h; exact hs.of_memory_stack_pc_eq rfl rfl rfl rfl (by decide)

/-- The Step cycle keeps the bounds: it runs no instruction that starts above 0xFFE, so `pc` is at most 0x1000 once advanced. -/
theorem engineStep_bounded {s t : State} (h : engineStep s = .next t) (hs : s.Bounded 0x10FE) : t.Bounded 0x10FE := by
  have e : (s.pc + 2).toNat = s.pc.toNat + 2 := toNat_pc_add_two hs.pc
  rcases engineStep_cases s with ⟨-, he⟩ | ⟨-, -, he⟩ | ⟨-, hp, -, he⟩ | ⟨-, hp, i, -, he⟩ <;> rw [he] at h
  · cases h; exact hs.of_memory_stack_pc_eq rfl rfl rfl rfl le_rfl
  · cases h; exact hs.of_memory_stack_pc_eq rfl rfl rfl rfl le_rfl
  · cases h
    refine hs.of_memory_stack_eq rfl rfl rfl ?_
    change (s.pc + 2).toNat ≤ _
    omega
  · have ha : s.advanced.pc.toNat = s.pc.toNat + 2 := e
    exact exec_bounded h (hs.of_memory_stack_eq rfl rfl rfl (by omega)) (by omega)

theorem setKeys_bounded {s : State} {a : Nat} (new : Vector Bool 16) (hs : s.Bounded a) : (s.setKeys new).Bounded a := by
  rcases setKeys_cases s new with ⟨k, ks, -, -, e⟩ | ⟨-, e⟩ <;> rw [e] <;> exact hs.of_memory_stack_pc_eq rfl rfl rfl rfl le_rfl

theorem setKeys_rnd (s : State) (new : Vector Bool 16) : (s.setKeys new).rnd = s.rnd := by
  rcases setKeys_cases s new with ⟨k, ks, -, -, e⟩ | ⟨-, e⟩ <;> rw [e] <;> rfl

/-- Settles O41: memory lists nothing, `pc` is 0x200, no stack entry is valid. -/
theorem resetHasTheInvariant : Obligations.ResetHasTheInvariant where
  memory := rfl
  pc := by decide
  stack _ hk := absurd hk (Nat.not_lt_zero _)
  rnd := rfl

/-- `Reset` establishes the invariant from any state, whatever the font. -/
theorem afterReset_inv (s : State) : s.afterReset.Inv where
  memory := Memory.wf_writeBytes _ _ rfl
  pc := resetHasTheInvariant.pc
  stack := resetHasTheInvariant.stack
  rnd := rfl

/-- Settles O40: by the operation performed; a Step by the bounds of the Step cycle, every other operation leaves `pc` and the stack or is `Reset`. -/
theorem everyStepKeepsTheInvariant : Obligations.EveryStepKeepsTheInvariant := by
  intro s t hs h
  obtain ⟨hb, hr⟩ := s.inv_iff.mp hs
  have same {u : State} (hm : u.memory = s.memory) (hst : u.stack = s.stack) (hn : u.stackIndex = s.stackIndex)
      (hp : u.pc = s.pc) : u.Bounded 0x10FE := hb.of_memory_stack_pc_eq hm hst hn hp le_rfl
  cases step_next h with
  | ownStep hi he =>
    exact t.inv_iff.mpr ⟨engineStep_bounded he (same rfl rfl rfl rfl), (engineStep_keeps he).rnd.trans hr⟩
  | @hostStep b rest u hi he =>
    have hu : u.Bounded 0x10FE := engineStep_bounded he (same rfl rfl rfl rfl)
    exact (State.inv_iff _).mpr ⟨hu.of_memory_stack_pc_eq rfl rfl rfl rfl le_rfl, rfl⟩
  | reset hi => exact afterReset_inv _
  | loadRefused hi => exact (State.inv_iff _).mpr ⟨same rfl rfl rfl rfl, hr⟩
  | @loaded bytes rest hi =>
    have hl : (s.setInputs rest).leaveReset.Bounded 0x10FE := same rfl rfl rfl rfl
    exact (State.inv_iff _).mpr ⟨hl.writeBytes _ _, hr⟩
  | setKeys hi =>
    exact (State.inv_iff _).mpr ⟨setKeys_bounded _ (same rfl rfl rfl rfl), (setKeys_rnd _ _).trans hr⟩
  | tick hi => exact (State.inv_iff _).mpr ⟨same rfl rfl rfl rfl, hr⟩
  | ackDraw hi => exact (State.inv_iff _).mpr ⟨same rfl rfl rfl rfl, hr⟩

end Sys2Proof.Machine

/-! VF and the draw signal. -/

namespace Sys2Proof.Machine

theorem raise_reg {f : Fault} {s t : State} (h : raise f s = .next t) (j : Reg) : t.reg j = s.reg j := by
  cases h; rfl

theorem flagByte_eq_zero_or_one (f : Bool) : flagByte f = 0 ∨ flagByte f = 1 := by
  cases f
  · exact .inl rfl
  · exact .inr rfl

/-- A flag-writing instruction leaves exactly 0 or 1 in VF, whatever its destination (R21, R28). -/
theorem setRegFlag_vf (s : State) (x : Reg) (b : Byte) (f : Bool) :
    (s.setRegFlag x b f).reg vf = 0 ∨ (s.setRegFlag x b f).reg vf = 1 := by
  rw [State.setRegFlag_reg, if_pos rfl]
  exact flagByte_eq_zero_or_one f

/-- FX65 writes only the registers up to X (R218). -/
theorem exec_ldRegs_reg_above {x j : Reg} {s t : State} (h : exec (.ldRegs x) s = .next t) (hj : x < j) : t.reg j = s.reg j := by
  obtain rfl | ⟨f, hf⟩ := guardError_next (u := s.setRegs (writeRegs s.v 0 (s.memory.readBytes s.i.toNat (x.val + 1)))) h
  · have hxj : x.val < j.val := hj
    rw [State.setRegs_reg, Fin.getElem_fin, writeRegs_getElem _ _ _ _ j.isLt, Memory.length_readBytes, if_neg (by omega)]
    rfl
  · exact raise_reg hf j

/-- Settles O42: the flag writers by `setRegFlag_vf`, every other instruction by the registers it writes. -/
theorem onlyFlagWritersTouchVF : Obligations.OnlyFlagWritersTouchVF := by
  intro i s t h
  cases i
  case addReg | sub | shr | subn | shl => cases h; exact setRegFlag_vf s _ _ _
  case drw x y n =>
    intro hc
    obtain rfl | ⟨f, hf⟩ := guardError_next h
    · rw [State.setCollision, State.setPixels_config, hc]; rfl
    · exact raise_reg hf 15
  case ldImm | addImm | ldReg | or | and | xor | rnd | ldFromDT =>
    intro hx
    cases h
    exact State.setReg_reg_other s _ hx.symm
  case ldRegs x => exact fun hx => exec_ldRegs_reg_above h (lt_of_le_of_ne (Fin.le_last x) hx)
  case ret =>
    obtain ⟨-, rfl⟩ | ⟨f, hf⟩ := exec_ret_next h
    · rfl
    · exact raise_reg hf 15
  case call nnn =>
    obtain ⟨-, rfl⟩ | ⟨f, hf⟩ := exec_call_next h
    · rfl
    · exact raise_reg hf 15
  case ldB | stRegs =>
    obtain rfl | ⟨f, hf⟩ := guardError_next h
    · rfl
    · exact raise_reg hf 15
  case seImm | sneImm | seReg | sneReg | skp | sknp => cases h; rw [skipIf_eq]; rfl
  all_goals cases h; rfl

/-! The draw signal (R36). -/

theorem raise_drawPending {f : Fault} {s t : State} (h : raise f s = .next t) : t.drawPending = s.drawPending := by
  cases h; rfl

theorem setCollision_drawPending (s : State) (c : Bool) : (s.setCollision c).drawPending = s.drawPending := by
  rcases setCollision_cases s c with ⟨-, e⟩ | ⟨-, e⟩ <;> rw [e]
  exact State.setReg_drawPending s vf _

theorem setKeys_drawPending (s : State) (new : Vector Bool 16) : (s.setKeys new).drawPending = s.drawPending := by
  rcases setKeys_cases s new with ⟨k, ks, -, -, e⟩ | ⟨-, e⟩ <;> rw [e] <;> rfl

/-- Every instruction keeps the draw signal, but 00E0 and DXYN may set it. -/
theorem exec_drawPending {i : Instr} {s t : State} (h : exec i s = .next t) :
    t.drawPending = s.drawPending ∨ (t.drawPending = true ∧ (i = .cls ∨ ∃ x y n, i = .drw x y n)) := by
  cases i
  case cls => cases h; exact .inr ⟨rfl, .inl rfl⟩
  case drw x y n =>
    obtain rfl | ⟨f, hf⟩ := guardError_next h
    · exact .inr ⟨setCollision_drawPending _ _, .inr ⟨x, y, n, rfl⟩⟩
    · exact .inl (raise_drawPending hf)
  case ret =>
    obtain ⟨-, rfl⟩ | ⟨f, hf⟩ := exec_ret_next h
    · exact .inl rfl
    · exact .inl (raise_drawPending hf)
  case call nnn =>
    obtain ⟨-, rfl⟩ | ⟨f, hf⟩ := exec_call_next h
    · exact .inl rfl
    · exact .inl (raise_drawPending hf)
  case ldB | stRegs | ldRegs =>
    obtain rfl | ⟨f, hf⟩ := guardError_next h
    · exact .inl rfl
    · exact .inl (raise_drawPending hf)
  case seImm | sneImm | seReg | sneReg | skp | sknp => cases h; rw [skipIf_eq]; exact .inl rfl
  all_goals cases h; exact .inl rfl

/-- The word is 00E0 or DXYN. -/
def DrawsOnDecode (op : Word) : Prop := decodeWord op = .ok .cls ∨ ∃ x y n, decodeWord op = .ok (.drw x y n)

/-- The Step cycle keeps the draw signal, but may set it where it fetches 00E0 or DXYN. -/
theorem engineStep_drawPending {s t : State} (h : engineStep s = .next t) :
    t.drawPending = s.drawPending ∨ (t.drawPending = true ∧ DrawsOnDecode s.fetchWord) := by
  rcases engineStep_cases s with ⟨-, e⟩ | ⟨-, -, e⟩ | ⟨-, -, -, e⟩ | ⟨-, -, i, hd, e⟩ <;> rw [e] at h
  · cases h; exact .inl rfl
  · cases h; exact .inl rfl
  · cases h; exact .inl rfl
  · obtain hk | ⟨ht, rfl | ⟨x, y, n, rfl⟩⟩ := exec_drawPending h
    · exact .inl hk
    · exact .inr ⟨ht, .inl hd⟩
    · exact .inr ⟨ht, .inr ⟨x, y, n, hd⟩⟩

/-- One step keeps the draw signal, or clears it as `AckDraw` or `Reset`, or sets it as a Step that fetches 00E0 or DXYN. -/
theorem step_drawPending {s t : State} (h : step s = .next t) :
    t.drawPending = s.drawPending ∨
    (t.drawPending = false ∧ ∃ rest, s.inputs = .ackDraw :: rest ∨ s.inputs = .reset :: rest) ∨
    (t.drawPending = true ∧ (s.inputs = [] ∨ ∃ rnd rest, s.inputs = .step rnd :: rest) ∧ DrawsOnDecode s.fetchWord) := by
  cases step_next h with
  | ownStep hi he => exact (engineStep_drawPending he).imp id fun ⟨ht, hd⟩ => .inr ⟨ht, .inl hi, hd⟩
  | hostStep hi he => exact (engineStep_drawPending he).imp id fun ⟨ht, hd⟩ => .inr ⟨ht, .inr ⟨_, _, hi⟩, hd⟩
  | reset hi => exact .inr (.inl ⟨rfl, _, .inr hi⟩)
  | ackDraw hi => exact .inr (.inl ⟨rfl, _, .inl hi⟩)
  | setKeys hi => exact .inl (setKeys_drawPending _ _)
  | loadRefused hi => exact .inl rfl
  | loaded hi => exact .inl rfl
  | tick hi => exact .inl rfl

/-- Settles O46: by the three things a step can do to the signal. -/
theorem drawSignalSetAndClearedOnlyByItsOwners : Obligations.DrawSignalSetAndClearedOnlyByItsOwners := by
  intro s t h
  obtain hk | ⟨ht, hi⟩ | ⟨ht, hi, hd⟩ := step_drawPending h
  · exact ⟨fun hs ht => (by rw [hk, hs] at ht; cases ht), fun hs ht => (by rw [hk, hs] at ht; cases ht)⟩
  · exact ⟨fun _ _ => hi, fun _ ht' => (by rw [ht] at ht'; cases ht')⟩
  · exact ⟨fun _ ht' => (by rw [ht] at ht'; cases ht'), fun _ _ => ⟨hi, hd⟩⟩

end Sys2Proof.Machine

/-! The encoding of instructions (R61, R92, R93, R96). -/

namespace Sys2Proof

/-! The operand fields of the words the encoder builds, format by format. -/

theorem fieldNNN_wordNNN {op : Nat} (h : op < 16) (nnn : Addr) : fieldNNN (wordNNN op nnn) = nnn := by
  apply BitVec.eq_of_toNat_eq
  have := nnn.isLt
  simp only [fieldNNN, bits, wordNNN_toNat h, BitVec.toNat_ofNat]
  omega

theorem fieldX_wordXNN {op : Nat} (h : op < 16) (x : Reg) (nn : Byte) : fieldX (wordXNN op x nn) = x := by
  apply Fin.ext
  have := nn.isLt
  simp only [fieldX, bits, wordXNN_toNat h]
  omega

theorem fieldNN_wordXNN {op : Nat} (h : op < 16) (x : Reg) (nn : Byte) : fieldNN (wordXNN op x nn) = nn := by
  apply BitVec.eq_of_toNat_eq
  have := nn.isLt
  simp only [fieldNN, bits, wordXNN_toNat h, BitVec.toNat_ofNat]
  omega

theorem fieldX_wordXYN {op n : Nat} (h : op < 16) (hn : n < 16) (x y : Reg) : fieldX (wordXYN op x y n) = x := by
  apply Fin.ext
  simp only [fieldX, bits, wordXYN_toNat h hn]
  omega

theorem fieldY_wordXYN {op n : Nat} (h : op < 16) (hn : n < 16) (x y : Reg) : fieldY (wordXYN op x y n) = y := by
  apply Fin.ext
  simp only [fieldY, bits, wordXYN_toNat h hn]
  omega

theorem fieldN_wordXYN {op : Nat} (h : op < 16) (x y : Reg) (n : Rows) : fieldN (wordXYN op x y n) = n :=
  Fin.ext (bits_wordXYN h n.isLt x y).2

theorem fieldX_wordX {op f : Nat} (h : op < 16) (hf : f < 256) (x : Reg) : fieldX (wordX op x f) = x := by
  apply Fin.ext
  simp only [fieldX, bits, wordX_toNat h hf]
  omega

/-- The decoder inverts the encoder on words: by the format, the family nibble and the function nibble or byte select the instruction's own arm,
and the operand fields are the operands. -/
theorem decodeWord_encode (i : Instr) : decodeWord (encode i) = .ok i := by
  cases i
  case cls | ret => decide
  case jp | call | ldI | jpV0 => simp [encode, decodeWord, bits_wordNNN, fieldNNN_wordNNN]
  case seImm | sneImm | ldImm | addImm | rnd =>
    simp [encode, decodeWord, bits_wordXNN, fieldX_wordXNN, fieldNN_wordXNN]
  case seReg | sneReg => simp [encode, decodeWord, bits_wordXYN, fieldX_wordXYN, fieldY_wordXYN]
  case ldReg | or | and | xor | addReg | sub | shr | subn | shl =>
    simp [encode, decodeWord, decodeAlu, bits_wordXYN, fieldX_wordXYN, fieldY_wordXYN]
  case drw => simp [encode, decodeWord, bits_wordXYN, fieldX_wordXYN, fieldY_wordXYN, fieldN_wordXYN]
  case skp | sknp => simp [encode, decodeWord, bits_wordX, fieldX_wordX]
  case ldFromDT | ldKey | ldDT | ldST | addI | ldF | ldB | stRegs | ldRegs =>
    simp [encode, decodeWord, decodeFx, bits_wordX, fieldX_wordX]

/-- The byte decoder on the two bytes of a word that decodes, high byte first (R61). -/
theorem decode_of_decodeWord {op : Word} {i : Instr} (h : decodeWord op = .ok i) (rest : List Byte) :
    decode (highByte op :: lowByte op :: rest) = .ok (i, rest) := by
  rw [decode, wordOfBytes_high_low, h]

/-- Settles O56: the word decoder inverts the encoder, and the byte decoder reads that word back from its two bytes. -/
theorem decodeOfEncode : Obligations.DecodeOfEncode := fun i rest _ =>
  ⟨decodeWord_encode i, decode_of_decodeWord (decodeWord_encode i) rest⟩

/-- High byte first (R61); two bytes always fit a word. -/
theorem wordOfBytes_toNat (hi lo : Byte) : (wordOfBytes hi lo).toNat = hi.toNat * 256 + lo.toNat := by
  have := hi.isLt; have := lo.isLt
  simp only [wordOfBytes, BitVec.toNat_ofNat]
  omega

end Sys2Proof

/-! The block store FX55 (R217) and the fetch after it (R72). -/

namespace Sys2Proof.Machine

theorem length_regsUpTo (s : State) (x : Reg) : (s.regsUpTo x).length = x.val + 1 := by
  simp only [State.regsUpTo, List.length_take, Vector.length_toList]
  omega

/-- Byte k of V0..VX is V[k]. -/
theorem getD_regsUpTo (s : State) {x k : Reg} (h : k ≤ x) : (s.regsUpTo x).getD k.val 0 = s.reg k := by
  have hk : k.val < x.val + 1 := Nat.lt_succ_of_le h
  simp [State.regsUpTo, State.reg, List.getD_eq_getElem?_getD, hk]

/-- FX55 with its whole range inside memory stores the registers. -/
theorem exec_stRegs_next {s : State} {x : Reg} (h : s.i.toNat + x.val ≤ 0x0FFF) :
    exec (.stRegs x) s = .next (s.setMemory (s.memory.writeBytes s.i.toNat (s.regsUpTo x))) := by
  rw [exec, execStRegs, rangeError_none s (.inr (by omega)), guardError_none]

/-- A block store from address a in range leaves V[k] at a + k. -/
theorem read_writeBytes_regsUpTo (s : State) {m : Memory} {a : Nat} {x k : Reg} (hm : m.wf = true) (ha : a + x.val ≤ 0x0FFF) (hk : k ≤ x) :
    (m.writeBytes a (s.regsUpTo x)).read (a + k.val) = s.reg k := by
  have hk' : k.val ≤ x.val := hk
  have hl := length_regsUpTo s x
  rw [Memory.read_writeBytes _ hm (.inr (by simp only [hl, Config.memSize]; omega)), if_pos (by omega), Nat.add_sub_cancel_left,
    getD_regsUpTo s hk]

/-- Where the block store begins at `pc`, the next fetch reads V0 as the high byte and V1 as the low byte. -/
theorem fetchWord_setMemory_regsUpTo {s : State} {x : Reg} (hm : s.memory.wf = true) (hp : s.pc = s.i) (hx : 1 ≤ x)
    (hr : s.i.toNat + x.val ≤ 0x0FFF) :
    (s.setMemory (s.memory.writeBytes s.i.toNat (s.regsUpTo x))).fetchWord.toNat = (s.reg 0).toNat * 256 + (s.reg 1).toNat := by
  have h0 : (s.memory.writeBytes s.i.toNat (s.regsUpTo x)).read s.i.toNat = s.reg 0 :=
    read_writeBytes_regsUpTo s hm hr (Fin.zero_le x)
  have h1 : (s.memory.writeBytes s.i.toNat (s.regsUpTo x)).read (s.i.toNat + 1) = s.reg 1 :=
    read_writeBytes_regsUpTo s (k := 1) hm hr hx
  rw [State.fetchWord, State.setMemory_memory, State.setMemory_pc, hp, h0, h1, wordOfBytes_toNat]

/-- Settles O39: the Step is that of FX55 on the advanced state, in which `pc` is already the address of the store. -/
theorem storedCodeIsFetchedNext : Obligations.StoredCodeIsFetchedNext := by
  intro s rest x hs hm ha hx hp hd hi hr
  have he : engineStep s.leaveReset = exec (.stRegs x) s.leaveReset.advanced :=
    engineStep_exec ha (hp.trans (by decide)) hd
  have hstep := step_of_stepPending hs (.inr (.inr fun y nn e => by rw [hd] at e; cases e))
  rw [he, exec_stRegs_next (s := s.leaveReset.advanced) hr, mapNext_next] at hstep
  exact ⟨_, hstep, hi.symm, fetchWord_setMemory_regsUpTo (s := s.leaveReset.advanced) hm hi.symm hx hr⟩

end Sys2Proof.Machine

/-! Words the decoder recognises and words it does not (R94, R95, R96, R98). -/

namespace Sys2Proof

/-! A word is its family nibble, the operand fields of its format and the function nibble or byte (R92). -/

theorem wordNNN_fields {op : Word} {k : Nat} (hk : bits op 15 12 = k) : wordNNN k (fieldNNN op) = op := by
  apply BitVec.eq_of_toNat_eq
  have := op.isLt
  simp only [← hk, wordNNN, fieldNNN, bits, BitVec.toNat_ofNat]
  omega

theorem wordXNN_fields {op : Word} {k : Nat} (hk : bits op 15 12 = k) : wordXNN k (fieldX op) (fieldNN op) = op := by
  apply BitVec.eq_of_toNat_eq
  have := op.isLt
  simp only [← hk, wordXNN, fieldX, fieldNN, bits, BitVec.toNat_ofNat]
  omega

theorem wordXYN_fields {op : Word} {k n : Nat} (hk : bits op 15 12 = k) (hn : bits op 3 0 = n) :
    wordXYN k (fieldX op) (fieldY op) n = op := by
  apply BitVec.eq_of_toNat_eq
  have := op.isLt
  simp only [← hk, ← hn, wordXYN, fieldX, fieldY, bits, BitVec.toNat_ofNat]
  omega

theorem wordX_fields {op : Word} {k f : Nat} (hk : bits op 15 12 = k) (hf : bits op 7 0 = f) : wordX k (fieldX op) f = op := by
  apply BitVec.eq_of_toNat_eq
  have := op.isLt
  simp only [← hk, ← hf, wordX, fieldX, bits, BitVec.toNat_ofNat]
  omega

theorem encode_of_decodeAlu {op : Word} {i : Instr} (hk : bits op 15 12 = 0x8) (h : decodeAlu op = .ok i) : encode i = op := by
  unfold decodeAlu at h
  split at h <;> cases h <;> exact wordXYN_fields hk ‹_›

theorem encode_of_decodeFx {op : Word} {i : Instr} (hk : bits op 15 12 = 0xF) (h : decodeFx op = .ok i) : encode i = op := by
  unfold decodeFx at h
  split at h <;> cases h <;> exact wordX_fields hk ‹_›

/-- Settles O57, family by family: each arm takes every operand field of its format and fixes every other bit. -/
theorem encodeOfDecode : Obligations.EncodeOfDecode := by
  intro op i h
  unfold decodeWord at h
  split at h
  case h_1 =>
    split_ifs at h with hcls hret <;> cases h
    · exact hcls.symm
    · exact hret.symm
  case h_2 hk | h_3 hk | h_11 hk | h_12 hk => cases h; exact wordNNN_fields hk
  case h_4 hk | h_5 hk | h_7 hk | h_8 hk | h_13 hk => cases h; exact wordXNN_fields hk
  case h_6 hk | h_10 hk =>
    split_ifs at h with hn
    cases h
    exact wordXYN_fields hk hn
  case h_9 hk => exact encode_of_decodeAlu hk h
  case h_14 hk => cases h; exact wordXYN_fields hk rfl
  case h_15 hk =>
    split_ifs at h with hskp hsknp <;> cases h
    · exact wordX_fields hk hskp
    · exact wordX_fields hk hsknp
  case h_16 hk => exact encode_of_decodeFx hk h
  case h_17 => cases h

/-! The opcode map (R96): the row of each instruction, that no two rows share a word, and that each row's words decode. -/

/-- Every instruction's word is selected by the row of its mnemonic. -/
theorem encode_matches_row (i : Instr) : Laws.RowMatch.Statement i := by
  open Laws.RowMatch in
  cases i
  exacts [cls, ret, jp _, call _, seImm _ _, sneImm _ _, seReg _ _, ldImm _ _, addImm _ _, ldReg _ _, or _ _, and _ _, xor _ _,
    addReg _ _, sub _ _, shr _ _, subn _ _, shl _ _, sneReg _ _, ldI _, jpV0 _, rnd _ _, drw _ _ _, skp _, sknp _, ldFromDT _,
    ldKey _, ldDT _, ldST _, addI _, ldF _, ldB _, stRegs _, ldRegs _]

theorem OpcodeRow.selects_iff {r : OpcodeRow} {op : Word} : r.selects op = true ↔ op &&& r.mask = r.value := beq_iff_eq

/-- Two rows that select the same word agree on the bits both fix. -/
theorem OpcodeRow.values_agree {r r' : OpcodeRow} {op : Word} (h : r.selects op = true) (h' : r'.selects op = true) :
    r.value &&& r'.mask = r'.value &&& r.mask := by
  rw [← selects_iff.mp h, ← selects_iff.mp h', BitVec.and_assoc, BitVec.and_assoc, BitVec.and_comm r.mask]

/-- Any two different rows differ in a bit both fix. -/
theorem opcodeTable_eq_of_values_agree :
    ∀ r ∈ opcodeTable, ∀ r' ∈ opcodeTable, r.value &&& r'.mask = r'.value &&& r.mask → r = r' := by
  decide

/-- The bits the rows of a word's family fix: all, the family nibble, or with it the function nibble or the function byte (R92, R96). -/
def fixedBits (op : Word) : Word :=
  match bits op 15 12 with
  | 0x0 => 0xFFFF
  | 0x5 | 0x8 | 0x9 => 0xF00F
  | 0xE | 0xF => 0xF0FF
  | _ => 0xF000

theorem opcodeTable_mask : ∀ r ∈ opcodeTable, r.mask = fixedBits r.value := by decide

theorem opcodeTable_value_decodes : ∀ r ∈ opcodeTable, (decodeWord r.value).isOk = true := by decide

/-- Whether a word decodes depends only on the bits its family fixes. -/
theorem decodeWord_isOk_of_fixedBits {op v : Word} (h : op &&& fixedBits v = v) : (decodeWord op).isOk = (decodeWord v).isOk := by
  unfold fixedBits at h
  split at h
  case h_1 =>
    have hop : op = v := BitVec.and_allOnes.symm.trans h
    rw [hop]
  case h_2 hv | h_3 hv | h_4 hv =>
    have hk := bits_of_mask 15 12 h (by decide)
    have hn := bits_of_mask 3 0 h (by decide)
    simp only [decodeWord, decodeAlu, hk, hn, hv]
    split <;> rfl
  case h_5 hv =>
    have hk := bits_of_mask 15 12 h (by decide)
    have hf := bits_of_mask 7 0 h (by decide)
    simp only [decodeWord, hk, hf, hv]
    split_ifs <;> rfl
  case h_6 hv =>
    have hk := bits_of_mask 15 12 h (by decide)
    have hf := bits_of_mask 7 0 h (by decide)
    simp only [decodeWord, decodeFx, hk, hf, hv]
    split <;> rfl
  case h_7 =>
    have hk := bits_of_mask 15 12 h (by decide)
    simp only [decodeWord, hk]
    split
    case h_1 | h_6 | h_9 | h_10 | h_15 | h_16 => contradiction
    all_goals rfl

/-- A word that a row selects decodes, since the row's value does. -/
theorem decodeWord_isOk_of_selects {r : OpcodeRow} {op : Word} (hr : r ∈ opcodeTable) (h : r.selects op = true) :
    (decodeWord op).isOk = true := by
  rw [decodeWord_isOk_of_fixedBits (opcodeTable_mask r hr ▸ OpcodeRow.selects_iff.mp h), opcodeTable_value_decodes r hr]

/-- Settles O58: the row of the instruction's mnemonic selects its word, no other row shares a word with it, and every row's words decode. -/
theorem decodeAgreesWithTheOpcodeMap : Obligations.DecodeAgreesWithTheOpcodeMap := by
  constructor
  · intro op i h
    obtain ⟨r, hr, hm, -, hs⟩ := encode_matches_row i
    rw [encodeOfDecode op i h] at hs
    exact ⟨r, hr, hs, hm, fun r' hr' hs' => opcodeTable_eq_of_values_agree r' hr' r hr (OpcodeRow.values_agree hs' hs)⟩
  · intro op h
    obtain ⟨r, hr, hs⟩ := List.any_eq_true.mp h
    have hok := decodeWord_isOk_of_selects hr hs
    cases hd : decodeWord op with
    | ok i => exact ⟨i, rfl⟩
    | error e => rw [hd] at hok; cases hok

/-! The unrecognised words (R95), family by family. -/

theorem decodeAlu_eq_error_iff (op : Word) :
    decodeAlu op = .error (.unrecognised op) ↔ bits op 3 0 ∈ [8, 9, 0xA, 0xB, 0xC, 0xD, 0xF] := by
  unfold decodeAlu
  split
  case h_10 =>
    have hlt := bits_lt op 3 0
    generalize bits op 3 0 = n at *
    interval_cases n <;> simp_all
  all_goals simp [*]

theorem decodeFx_eq_error_iff (op : Word) :
    decodeFx op = .error (.unrecognised op) ↔ bits op 7 0 ∉ [0x07, 0x0A, 0x15, 0x18, 0x1E, 0x29, 0x33, 0x55, 0x65] := by
  unfold decodeFx
  split <;> simp_all

theorem toNat_and_000F (op : Word) : (op &&& 0x000F).toNat = bits op 3 0 := by
  simp [bits, Nat.and_two_pow_sub_one_eq_mod _ 4]

theorem toNat_and_00FF (op : Word) : (op &&& 0x00FF).toNat = bits op 7 0 := by
  simp [bits, Nat.and_two_pow_sub_one_eq_mod _ 8]

theorem and_000F_eq_zero_iff (op : Word) : op &&& 0x000F = 0 ↔ bits op 3 0 = 0 := by
  rw [← toNat_and_000F, ← BitVec.toNat_inj]
  exact Iff.rfl

/-- The table of R95 in the fields the decoder dispatches on. -/
theorem decodeWord_eq_error_iff (op : Word) : decodeWord op = .error (.unrecognised op) ↔
    (bits op 15 12 = 0x0 ∧ op ≠ 0x00E0 ∧ op ≠ 0x00EE) ∨
    (bits op 15 12 = 0x5 ∧ bits op 3 0 ≠ 0) ∨
    (bits op 15 12 = 0x8 ∧ bits op 3 0 ∈ [8, 9, 0xA, 0xB, 0xC, 0xD, 0xF]) ∨
    (bits op 15 12 = 0x9 ∧ bits op 3 0 ≠ 0) ∨
    (bits op 15 12 = 0xE ∧ bits op 7 0 ∉ [0x9E, 0xA1]) ∨
    (bits op 15 12 = 0xF ∧ bits op 7 0 ∉ [0x07, 0x0A, 0x15, 0x18, 0x1E, 0x29, 0x33, 0x55, 0x65]) := by
  unfold decodeWord
  split
  case h_1 hk | h_15 hk =>
    simp only [hk]
    split_ifs <;> simp_all
  case h_6 hk | h_10 hk => simp [hk]
  case h_9 hk => simp [hk, decodeAlu_eq_error_iff]
  case h_16 hk => simp [hk, decodeFx_eq_error_iff]
  case h_17 =>
    have hlt := bits_lt op 15 12
    generalize bits op 15 12 = k at *
    interval_cases k <;> contradiction
  -- Every other family decodes all its words.
  all_goals simp [*]

/-- Settles O59: each mask of the table reads the field the decoder dispatches on. -/
theorem unrecognisedWordsAreExactlyThese : Obligations.UnrecognisedWordsAreExactlyThese := by
  intro op
  have h0 : op &&& 0xF000 = 0x0000 ↔ bits op 15 12 = 0x0 := and_F000_iff op 0x0000 (by decide)
  have h5 : op &&& 0xF000 = 0x5000 ↔ bits op 15 12 = 0x5 := and_F000_iff op 0x5000 (by decide)
  have h8 : op &&& 0xF000 = 0x8000 ↔ bits op 15 12 = 0x8 := and_F000_iff op 0x8000 (by decide)
  have h9 : op &&& 0xF000 = 0x9000 ↔ bits op 15 12 = 0x9 := and_F000_iff op 0x9000 (by decide)
  have hE : op &&& 0xF000 = 0xE000 ↔ bits op 15 12 = 0xE := and_F000_iff op 0xE000 (by decide)
  have hF : op &&& 0xF000 = 0xF000 ↔ bits op 15 12 = 0xF := and_F000_iff op 0xF000 (by decide)
  rw [decodeWord_eq_error_iff, h0, h5, h8, h9, hE, hF, toNat_and_000F, toNat_and_00FF, ne_eq (op &&& 0x000F),
    and_000F_eq_zero_iff]

/-- Settles O60: by evaluation of the decoder on each of the eleven words. -/
theorem exampleWordsDecode : Obligations.ExampleWordsDecode := by
  unfold Obligations.ExampleWordsDecode
  decide

end Sys2Proof

/-! The Step cycle (R122 to R129, R258): frames of a Step, and what a Step and a frame of operations answer. -/

namespace Sys2Proof.Machine

/-! Frames: nothing changed, and a change of one of the model's own fields that the frame allows. -/

theorem Frame.refl (changed : List Part) (s : State) : Frame changed s s :=
  ⟨.inr fun _ => rfl, .inr rfl, .inr rfl, .inr rfl, .inr rfl, .inr rfl, .inr rfl, .inr fun _ => rfl, .inr rfl, .inr rfl, .inr rfl,
    .inr rfl, .inr rfl, .inr rfl, .inr rfl, .inr rfl, .inr rfl, .inr rfl, .inr rfl⟩

theorem Frame.setReport {changed : List Part} {s t : State} (h : Frame changed s t) (hm : Part.report ∈ changed) (r : Report) :
    Frame changed s (t.setReport r) :=
  { h with report := .inl hm }

theorem Frame.setInputs {changed : List Part} {s t : State} (h : Frame changed s t) (hm : Part.inputs ∈ changed) (ops : List HostOp) :
    Frame changed s (t.setInputs ops) :=
  { h with inputs := .inl hm }

theorem Frame.leaveReset {changed : List Part} {s t : State} (h : Frame changed s t) (hm : Part.justReset ∈ changed) :
    Frame changed s t.leaveReset :=
  { h with justReset := .inl hm }

/-- A Step that only reports leaves everything but the model's own fields. -/
theorem frame_reported (s : State) (r : Report) (rest : List HostOp) :
    Frame [.report, .inputs, .justReset] s ((s.leaveReset.setReport r).setInputs rest) :=
  (((Frame.refl _ s).leaveReset (by decide)).setReport (by decide) r).setInputs (by decide) rest

/-! A Step that runs no instruction (R125, R126), and the jump to itself (R129). -/

/-- Settles O33: the key-wait gate comes first (R258), so neither `pc` nor the draw is looked at. -/
theorem awaitingStepIsIdle : Obligations.AwaitingStepIsIdle := by
  intro s rest hs ha
  have hstep := step_of_stepPending hs (.inl ha)
  rw [engineStep_idle (s := s.leaveReset) ha, mapNext_next] at hstep
  exact ⟨_, hstep, rfl, rfl, rfl, rfl, frame_reported s .idle rest⟩

/-- The first address above 0xFFF of the two at `pc`. -/
theorem first_fetch_address_out_of_range {pc : Word} (h : 0x0FFE < pc.toNat) :
    max pc.toNat Config.memSize = if pc = 0x0FFF then 0x1000 else pc.toNat := by
  split
  case isTrue e => rw [e]; rfl
  case isFalse e =>
    have hne : pc.toNat ≠ 0x0FFF := fun h' => e (BitVec.eq_of_toNat_eq h')
    exact max_eq_left (by simp only [Config.memSize]; omega)

/-- Settles O32: the fetch bounds are checked before the word is read, so the draw is not looked at either. -/
theorem fetchOutOfRangeIsReported : Obligations.FetchOutOfRangeIsReported := by
  intro s rest hs ha hp
  have hstep := step_of_stepPending hs (.inr (.inl hp))
  rw [engineStep_fetchError (s := s.leaveReset) ha hp, mapNext_next, State.failFetch, State.leaveReset_pc,
    first_fetch_address_out_of_range hp] at hstep
  exact ⟨_, hstep, rfl, rfl, rfl, rfl, frame_reported s _ rest⟩

/-- At the end of a run the core is Running, and the word at `pc`, within the fetch bounds, is the jump to `pc`. -/
theorem State.ended_iff (s : State) : s.ended = true ↔
    s.awaitingKey = false ∧ s.pc.toNat ≤ 0x0FFE ∧ s.fetchWord = encode (.jp (s.pc.setWidth 12)) := by
  simp [State.ended, and_assoc]

/-- An address inside memory is its own 12-bit field. -/
theorem zext16_setWidth_of_lt {pc : Word} (h : pc.toNat < 0x1000) : Addr.zext16 (pc.setWidth 12) = pc := by
  apply BitVec.eq_of_toNat_eq
  simp only [BitVec.toNat_setWidth]
  omega

/-- The jump to `pc`, run on the advanced state, puts `pc` back. -/
theorem exec_jumpToSelf {s : State} (hp : s.pc.toNat ≤ 0x0FFE) :
    exec (.jp (s.pc.setWidth 12)) s.advanced = .next (s.setReport .ok) := by
  have hpc : Addr.zext16 (s.pc.setWidth 12) = s.pc := zext16_setWidth_of_lt (by omega)
  rw [exec, execJp, hpc]
  rfl

/-- Settles O38: the Step is that of the jump, which puts `pc` back, so that only the report is written. -/
theorem jumpToSelfIsAFixedPoint : Obligations.JumpToSelfIsAFixedPoint := by
  intro s rest hs he
  obtain ⟨ha, hp, hw⟩ := s.ended_iff.mp he
  have hd : decodeWord s.fetchWord = .ok (.jp (s.pc.setWidth 12)) := hw ▸ decodeWord_encode _
  have hstep := step_of_stepPending hs (.inr (.inr fun x nn e => by rw [hd] at e; cases e))
  rw [engineStep_exec (s := s.leaveReset) ha hp hd, ← State.leaveReset_pc, exec_jumpToSelf (s := s.leaveReset) hp,
    mapNext_next] at hstep
  exact ⟨_, hstep, rfl, rfl, rfl, rfl, he, frame_reported s .ok rest⟩

/-! A Step that runs an instruction (R124), and its draw (R128). -/

/-- The byte decoder on two bytes is the word decoder on the word they make (R61). -/
theorem decodeWord_of_decode_pair {hi lo : Byte} {i : Instr} (h : decode [hi, lo] = .ok (i, [])) :
    decodeWord (wordOfBytes hi lo) = .ok i := by
  rw [decode] at h
  cases hd : decodeWord (wordOfBytes hi lo) with
  | ok j => rw [hd] at h; cases h; rfl
  | error e => rw [hd] at h; cases h

/-- A `Step` of the host runs the Step cycle with its draw, and discards the draw. -/
theorem step_of_hostStep {s : State} {b : Byte} {rest : List HostOp} (hi : s.inputs = .step b :: rest) :
    step s = mapNext (State.setRnd · none) (engineStep ((s.setInputs rest).leaveReset.setRnd (some b))) := step_cons hi

/-- Settles O31: the Step cycle executes the decoded instruction on the advanced state, whatever operations are pending and whatever the draw. -/
theorem stepRunsTheDecodedInstruction : Obligations.StepRunsTheDecodedInstruction := by
  intro s i ha hp _ hd
  have hd : decodeWord s.fetchWord = .ok i := decodeWord_of_decode_pair hd
  constructor
  · intro hi
    rw [step_nil hi]
    exact engineStep_exec ha hp hd
  · intro b rest t hi ht
    have he : engineStep ((s.setInputs rest).leaveReset.setRnd (some b)) = .next t :=
      (engineStep_exec (s := (s.setInputs rest).leaveReset.setRnd (some b)) ha hp hd).trans ht
    rw [step_of_hostStep hi, he]
    rfl

theorem mapNext_mapNext (f g : State → State) (r : Result) : mapNext g (mapNext f r) = mapNext (fun s => g (f s)) r := by
  cases r <;> rfl

/-- Unless it executes CXNN, a `Step` with a draw is the Step cycle, and no draw stands after it. -/
theorem stepWithDraw_eq {s : State} (b : Byte)
    (h : s.awaitingKey = true ∨ 0x0FFE < s.pc.toNat ∨ ∀ x nn, decodeWord s.fetchWord ≠ .ok (.rnd x nn)) :
    stepWithDraw b s = mapNext (State.setRnd · none) (engineStep s) := by
  rw [stepWithDraw, engineStep_setRnd s (some b) h, mapNext_mapNext]
  rfl

/-- Settles O47: with either draw the Step is the Step cycle without one. -/
theorem drawInfluencesOnlyRandom : Obligations.DrawInfluencesOnlyRandom := by
  intro s rest r r' h
  have hstep (b : Byte) : step { s with inputs := .step b :: rest } =
      mapNext (State.setRnd · none) (engineStep (s.setInputs rest).leaveReset) :=
    stepWithDraw_eq (s := (s.setInputs rest).leaveReset) b (.inr (.inr h))
  rw [hstep r, hstep r']

/-! The operations of one frame (R122). -/

/-- A guarded instruction answers a next state, completed or rejected. -/
theorem guardError_answers_next (e : Option Fault) (s u : State) : ∃ t, guardError e s (.next u) = .next t := by
  cases e with
  | none => exact ⟨u, rfl⟩
  | some f => exact ⟨_, raise_eq s f⟩

/-- No instruction stops the machine (R250, R251). -/
theorem exec_answers_next (i : Instr) (s : State) : ∃ t, exec i s = .next t := by
  cases i
  case ret =>
    by_cases hs : 0 < s.stackIndex.val
    · exact ⟨_, exec_ret_some hs⟩
    · exact ⟨_, exec_ret_none hs⟩
  case call nnn =>
    by_cases hs : s.stackIndex.val < 16
    · exact ⟨_, exec_call_some hs⟩
    · exact ⟨_, exec_call_none hs⟩
  case drw | ldB | stRegs | ldRegs => exact guardError_answers_next _ _ _
  all_goals exact ⟨_, rfl⟩

theorem engineStep_answers_next (s : State) : ∃ t, engineStep s = .next t := by
  obtain ⟨-, e⟩ | ⟨-, -, e⟩ | ⟨-, -, -, e⟩ | ⟨-, -, i, -, e⟩ := engineStep_cases s
  · exact ⟨_, e⟩
  · exact ⟨_, e⟩
  · exact ⟨_, e⟩
  · obtain ⟨t, ht⟩ := exec_answers_next i s.advanced
    exact ⟨t, e.trans ht⟩

theorem stepWithDraw_answers_next (b : Byte) (s : State) : ∃ t, stepWithDraw b s = .next t := by
  obtain ⟨u, hu⟩ := engineStep_answers_next (s.setRnd (some b))
  exact ⟨u.setRnd none, by rw [stepWithDraw, hu, mapNext_next]⟩

/-- A `Step` with a draw keeps the pending operations and the mark of a reset. -/
theorem stepWithDraw_keeps {s t : State} {b : Byte} (h : stepWithDraw b s = .next t) :
    t.inputs = s.inputs ∧ t.justReset = s.justReset := by
  obtain ⟨u, hu, rfl⟩ := stepWithDraw_next h
  have hk := engineStep_keeps hu
  exact ⟨hk.inputs, hk.justReset⟩

/-- A `Step` with a draw does the same whatever operations are pending. -/
theorem stepWithDraw_setInputs (b : Byte) (s : State) (ops : List HostOp) :
    stepWithDraw b (s.setInputs ops) = mapNext (State.setInputs · ops) (stepWithDraw b s) := by
  have he := engineStep_setInputs (s.setRnd (some b)) ops
  change mapNext _ (engineStep ((s.setRnd (some b)).setInputs ops)) = _
  rw [he, stepWithDraw, mapNext_mapNext, mapNext_mapNext]
  rfl

/-- A `Step` with a draw while awaiting a key only reports Idle (R126). -/
theorem stepWithDraw_idle {s : State} (b : Byte) (ha : s.awaitingKey = true) (hr : s.rnd = none) :
    stepWithDraw b s = .next (s.setReport .idle) := by
  rw [stepWithDraw_eq b (.inl ha), engineStep_idle ha, mapNext_next, ← hr]
  rfl

/-- `SetKeys` does the same whatever operations are pending. -/
theorem setKeys_setInputs (s : State) (new : Vector Bool 16) (ops : List HostOp) :
    (s.setInputs ops).setKeys new = (s.setKeys new).setInputs ops := by
  have hn : (s.setInputs ops).newlyPressed new = s.newlyPressed new := rfl
  simp only [State.setKeys, hn, State.setInputs_awaitingKey]
  split <;> rfl

/-- `SetKeys` does the same directly after a reset and otherwise. -/
theorem setKeys_leaveReset (s : State) (new : Vector Bool 16) : s.leaveReset.setKeys new = (s.setKeys new).leaveReset := by
  have hn : s.leaveReset.newlyPressed new = s.newlyPressed new := rfl
  simp only [State.setKeys, hn, State.leaveReset_awaitingKey]
  split <;> rfl

theorem setKeys_inputs (s : State) (new : Vector Bool 16) : (s.setKeys new).inputs = s.inputs := by
  rcases setKeys_cases s new with ⟨k, ks, -, -, e⟩ | ⟨-, e⟩ <;> rw [e] <;> rfl

theorem setKeys_leaveReset_justReset (s : State) (new : Vector Bool 16) : (s.leaveReset.setKeys new).justReset = false := by
  rw [setKeys_leaveReset, State.leaveReset_justReset]

theorem leaveReset_of_not_justReset {s : State} (h : s.justReset = false) : s.leaveReset = s := by
  rw [State.leaveReset, ← h]

/-- `AckDraw` where no signal is set changes nothing, so a frame may issue it always (R122). -/
theorem ackDraw_if_pending (s : State) : (if s.drawPending then s.ackDraw else s) = s.ackDraw := by
  split
  case isTrue => rfl
  case isFalse h =>
    rw [State.ackDraw, State.setDrawPending, ← eq_false_of_ne_true h]

theorem run_succ_of_step {M : Host.Core} {s t : M.State} (k : Nat) (h : M.step s = .next t) : M.run (k + 1) s = M.run k t := by
  rw [Host.Core.run, h]

/-- The reference frame may as well issue `AckDraw` always. -/
theorem referenceFrame_eq (new : Vector Bool 16) (b : Byte) (s : State) :
    referenceFrame new b s = mapNext (fun u => u.tick.ackDraw)
      (if (s.leaveReset.setKeys new).awaitingKey then .next (s.leaveReset.setKeys new)
        else stepWithDraw b (s.leaveReset.setKeys new)) := by
  simp only [referenceFrame, ackDraw_if_pending]

theorem step_issuing_setKeys (s : State) (new : Vector Bool 16) (rest : List HostOp) :
    step (s.setInputs (.setKeys new :: rest)) = .next ((s.leaveReset.setKeys new).setInputs rest) :=
  congrArg Host.Outcome.next (setKeys_setInputs s.leaveReset new rest)

/-! Any other operation issued on a state that is not directly after a reset. -/

section
variable {s : State} (hs : s.justReset = false) (rest : List HostOp)
include hs

theorem step_issuing_step {u : State} {b : Byte} (hu : stepWithDraw b s = .next u) :
    step (s.setInputs (.step b :: rest)) = .next (u.setInputs rest) := by
  rw [← leaveReset_of_not_justReset hs] at hu
  change stepWithDraw b (s.leaveReset.setInputs rest) = _
  rw [stepWithDraw_setInputs, hu, mapNext_next]

theorem step_issuing_tick : step (s.setInputs (.tick :: rest)) = .next (s.tick.setInputs rest) := by
  change Host.Outcome.next (s.leaveReset.tick.setInputs rest) = _
  rw [leaveReset_of_not_justReset hs]

theorem step_issuing_ackDraw : step (s.setInputs (.ackDraw :: rest)) = .next (s.ackDraw.setInputs rest) := by
  change Host.Outcome.next (s.leaveReset.ackDraw.setInputs rest) = _
  rw [leaveReset_of_not_justReset hs]

end

/-- The four operations of a frame leave what `Tick` and `AckDraw` make of the `Step`'s state. -/
theorem run_frameOfFour {s u : State} {new : Vector Bool 16} {b : Byte} (hi : s.inputs = [])
    (hu : stepWithDraw b (s.leaveReset.setKeys new) = .next u) :
    Host.Core.run core 4 (s.setInputs [.setKeys new, .step b, .tick, .ackDraw]) = .next u.tick.ackDraw := by
  have hj := setKeys_leaveReset_justReset s new
  obtain ⟨hui, huj⟩ := stepWithDraw_keeps hu
  rw [setKeys_inputs, State.leaveReset_inputs, hi] at hui
  rw [hj] at huj
  have hstep := step_issuing_step hj [.tick, .ackDraw] hu
  have htick := step_issuing_tick huj [.ackDraw]
  have hack := step_issuing_ackDraw (s := u.tick) huj []
  have hend : u.tick.ackDraw.setInputs [] = u.tick.ackDraw := by rw [← hui]; rfl
  calc core.run 4 (s.setInputs [.setKeys new, .step b, .tick, .ackDraw])
    _ = core.run 3 _ := run_succ_of_step (M := core) 3 (step_issuing_setKeys s new _)
    _ = core.run 2 _ := run_succ_of_step (M := core) 2 hstep
    _ = core.run 1 _ := run_succ_of_step (M := core) 1 htick
    _ = core.run 0 _ := run_succ_of_step (M := core) 0 hack
    _ = .next u.tick.ackDraw := congrArg Host.Outcome.next hend

/-- Settles O55: where the core awaits a key the issued `Step` only reports Idle, else both frames issue it; `AckDraw` without a signal is nothing. -/
theorem frameOfFourIsTheReferenceFrame : Obligations.FrameOfFourIsTheReferenceFrame := by
  intro s new b hi hr
  have hr' : (s.leaveReset.setKeys new).rnd = none := (setKeys_rnd _ _).trans hr
  have href := referenceFrame_eq new b s
  cases ha : (s.leaveReset.setKeys new).awaitingKey with
  | true =>
    rw [ha, if_pos rfl, mapNext_next] at href
    refine ⟨_, _, run_frameOfFour hi (stepWithDraw_idle b ha hr'), href, (Frame.refl _ _).setReport (by decide) .idle, fun h => ?_⟩
    rw [setKeys_leaveReset, State.leaveReset_awaitingKey, h] at ha
    cases ha
  | false =>
    obtain ⟨u, hu⟩ := stepWithDraw_answers_next b (s.leaveReset.setKeys new)
    rw [ha, if_neg Bool.false_ne_true, hu, mapNext_next] at href
    exact ⟨_, _, run_frameOfFour hi hu, href, Frame.refl _ _, fun _ => rfl⟩

end Sys2Proof.Machine

/-! Families 0x0, 0x1, 0x2: clear screen, return, jump, call (R140 to R143). -/

namespace Sys2Proof

/-- Decoder and encoder are inverse: a word decodes to exactly the instruction whose word it is. -/
theorem decodeWord_eq_ok_iff {op : Word} {i : Instr} : decodeWord op = .ok i ↔ op = encode i :=
  ⟨fun h => (encodeOfDecode op i h).symm, fun h => h ▸ decodeWord_encode i⟩

theorem toNat_zext16_addr (nnn : Addr) : nnn.zext16.toNat = nnn.toNat := BitVec.toNat_setWidth_of_le (by decide)

end Sys2Proof

namespace Sys2Proof.Machine

/-! Frames: a change of a part of the state that the frame allows, and a rejected instruction. -/

section
variable {changed : List Part} {s t : State} (h : Frame changed s t)
include h

theorem Frame.setPc (hm : Part.pc ∈ changed) (w : Word) : Frame changed s (t.setPc w) :=
  { h with pc := .inl hm }

theorem Frame.setStack (hm : Part.stack ∈ changed) (hn : Part.stackIndex ∈ changed) (st : Vector Word 16) (n : Fin 17) :
    Frame changed s (t.setStack st n) :=
  { h with stack := .inl hm, stackIndex := .inl hn }

/-- A change of the depth alone, as a pop makes it. -/
theorem Frame.setStack_same (hn : Part.stackIndex ∈ changed) (n : Fin 17) : Frame changed s (t.setStack t.stack n) :=
  { h with stackIndex := .inl hn }

theorem Frame.setPixels (hm : Part.pixels ∈ changed) (hd : Part.drawPending ∈ changed) (p : Screen) :
    Frame changed s (t.setPixels p) :=
  { h with pixels := .inl hm, drawPending := .inl hd }

end

/-- Raising an error undoes the pre-advance of `pc` and reports (R253 to R255). -/
theorem raise_rejects {s : State} {a : Word} (f : Fault) (ha : s.pc = a + 2) : ∃ t, raise f s = .next t ∧ Rejected a f s t :=
  ⟨_, rfl, instrAddr_of_pc ha, rfl, ((Frame.refl _ s).setPc (by decide) _).setReport (by decide) _⟩

/-- 00EE with k + 1 entries returns to entry k. -/
theorem exec_ret_of_depth_succ {s : State} {k : Fin 16} (hk : s.stackIndex.val = k.val + 1) :
    exec .ret s = .next ((s.setStack s.stack k.castSucc).setPc s.stack[k]) := by
  rw [exec_ret_some (hk ▸ k.val.succ_pos)]
  simp only [hk, Nat.add_sub_cancel]
  rfl

/-- Settles O2: by the depth of the stack. -/
theorem retPopsOrUnderflows : Obligations.RetPopsOrUnderflows := by
  refine ⟨fun op => (decodeWord_eq_ok_iff (i := .ret)).symm, fun s k hk => ?_, fun s a ha hs => ?_⟩
  · exact ⟨_, exec_ret_of_depth_succ hk, rfl, rfl, ((Frame.refl _ s).setStack_same (by decide) _).setPc (by decide) _⟩
  · rw [exec_ret_none (hs ▸ Nat.lt_irrefl 0), instrAddr_of_pc ha]
    exact raise_rejects _ ha

/-- Settles O4: by whether the stack has room. -/
theorem callPushesOrOverflows : Obligations.CallPushesOrOverflows := by
  refine ⟨fun op h => ?_, fun nnn s hs => ?_, fun nnn s a ha hs => ?_⟩
  · have hk : bits op 15 12 = 0x2 := bits_of_mask 15 12 h (by decide)
    exact decodeWord_eq_ok_iff.mpr (wordNNN_fields hk).symm
  · refine ⟨_, exec_call_some hs, toNat_zext16_addr nnn, rfl, fun k => ?_,
      ((Frame.refl _ s).setStack (by decide) (by decide) _ _).setPc (by decide) _⟩
    simp only [State.setPc_stack, State.setStack_stack, Fin.getElem_fin, Vector.getElem_set, eq_comm]
  · rw [exec_call_none (hs ▸ Nat.lt_irrefl 16), instrAddr_of_pc ha]
    exact raise_rejects _ ha

/-- Settles O5: the return of `retPopsOrUnderflows` reads the entry that `callPushesOrOverflows` pushed. -/
theorem callThenRetResumesAfterTheCall : Obligations.CallThenRetResumesAfterTheCall := by
  intro nnn s hs
  obtain ⟨-, hcall, -⟩ := callPushesOrOverflows
  obtain ⟨-, hret, -⟩ := retPopsOrUnderflows
  obtain ⟨t, ht, -, htn, hts, -⟩ := hcall nnn s hs
  refine ⟨t, ht, fun t' hst hn => ?_⟩
  obtain ⟨u, hu, hpc, hun, hframe⟩ := hret t' ⟨s.stackIndex.val, hs⟩ (by rw [hn, htn])
  have hus : u.stack = t'.stack := hframe.stack.resolve_left (by decide)
  refine ⟨u, hu, ?_, Fin.ext hun, fun k hk => ?_⟩
  · rw [hpc, hst, hts, if_pos rfl]
  · rw [hus, hst, hts, if_neg hk.ne]

/-- Settles O1: the blank grid is off everywhere, whatever the screen was. -/
theorem clsBlanksTheScreen : Obligations.ClsBlanksTheScreen :=
  ⟨fun op => (decodeWord_eq_ok_iff (i := .cls)).symm, fun s =>
    ⟨s.setPixels Screen.blank, rfl, Screen.get_blank, rfl, (Frame.refl _ s).setPixels (by decide) (by decide) _⟩⟩

/-- Settles O3: the target is the NNN field, zero extended. -/
theorem jpLoadsPc : Obligations.JpLoadsPc := by
  refine ⟨fun op h => ?_, fun nnn s => ?_⟩
  · have hk : bits op 15 12 = 0x1 := bits_of_mask 15 12 h (by decide)
    exact decodeWord_eq_ok_iff.mpr (wordNNN_fields hk).symm
  · exact ⟨s.setPc nnn.zext16, rfl, toNat_zext16_addr nnn, (Frame.refl _ s).setPc (by decide) _⟩

end Sys2Proof.Machine

/-! Families 0x3, 0x4, 0x5, 0x9: the skips on registers (R150 to R153). -/

namespace Sys2Proof

/-- A word of format XNN (R92) decodes to the instruction of its family nibble, with the operands in its fields. -/
theorem decodeWord_of_mask_F000 {op value : Word} {i : Reg → Byte → Instr} (h : op &&& 0xF000 = value)
    (hi : ∀ x nn, encode (i x nn) = wordXNN (bits value 15 12) x nn) : decodeWord op = .ok (i (fieldX op) (fieldNN op)) := by
  have hk : bits op 15 12 = bits value 15 12 := bits_of_mask 15 12 h (by decide)
  exact decodeWord_eq_ok_iff.mpr ((hi _ _).trans (wordXNN_fields hk)).symm

/-- A word of format XY (R92) decodes to the instruction of its family nibble and low nibble, with the operands in its fields. -/
theorem decodeWord_of_mask_F00F {op value : Word} {i : Reg → Reg → Instr} (h : op &&& 0xF00F = value)
    (hi : ∀ x y, encode (i x y) = wordXYN (bits value 15 12) x y (bits value 3 0)) :
    decodeWord op = .ok (i (fieldX op) (fieldY op)) := by
  have hk : bits op 15 12 = bits value 15 12 := bits_of_mask 15 12 h (by decide)
  have hn : bits op 3 0 = bits value 3 0 := bits_of_mask 3 0 h (by decide)
  exact decodeWord_eq_ok_iff.mpr ((hi _ _).trans (wordXYN_fields hk hn)).symm

end Sys2Proof

namespace Sys2Proof.Machine

/-- An instruction that skips on `c` answers a next state, with `pc` 2 further if `c` holds and nothing else changed (R25). -/
theorem exec_skips {i : Instr} {s : State} {c : Bool} (he : exec i s = .next (s.skipIf c)) :
    ∃ t, exec i s = .next t ∧ t.pc = (if c then s.pc + 2 else s.pc) ∧ Frame [.pc] s t := by
  rw [skipIf_eq] at he
  exact ⟨_, he, rfl, (Frame.refl _ s).setPc (by decide) _⟩

/-- Settles O6: both are skips, on equality and on inequality with the immediate. -/
theorem skipsOnImmediate : Obligations.SkipsOnImmediate := by
  refine ⟨fun op h => decodeWord_of_mask_F000 h fun _ _ => rfl, fun op h => decodeWord_of_mask_F000 h fun _ _ => rfl,
    fun x nn s => ⟨?_, ?_⟩⟩
  · simpa only [beq_iff_eq] using exec_skips (i := .seImm x nn) (s := s) rfl
  · simpa only [bne_iff_ne, ne_eq, ite_not] using exec_skips (i := .sneImm x nn) (s := s) rfl

/-- Settles O7: both are skips, on equality and on inequality of the registers; the other low nibbles stand in the table of R95. -/
theorem skipsOnRegisters : Obligations.SkipsOnRegisters := by
  refine ⟨fun op h => decodeWord_of_mask_F00F h fun _ _ => rfl, fun op h => decodeWord_of_mask_F00F h fun _ _ => rfl,
    fun op hk hn => (unrecognisedWordsAreExactlyThese op).mpr ?_, fun x y s => ⟨?_, ?_⟩⟩
  · obtain h5 | h9 := hk
    · exact .inr (.inl ⟨h5, hn⟩)
    · exact .inr (.inr (.inr (.inl ⟨h9, hn⟩)))
  · simpa only [beq_iff_eq] using exec_skips (i := .seReg x y) (s := s) rfl
  · simpa only [bne_iff_ne, ne_eq, ite_not] using exec_skips (i := .sneReg x y) (s := s) rfl

end Sys2Proof.Machine

/-! Families 0x6, 0x7, 0x8: load immediate, add immediate, register ALU (R160 to R172). -/

namespace Sys2Proof.Machine

/-! The flags and results of R28 and R171 as the rules state them: over numbers, and over integers where the rule subtracts. -/

theorem flagByte_carryFlag_toNat (a b : Byte) : (flagByte (carryFlag a b)).toNat = if 255 < a.toNat + b.toNat then 1 else 0 := by
  simp only [flagByte_toNat, carryFlag, decide_eq_true_eq]

theorem flagByte_noBorrowFlag_toInt (a b : Byte) :
    ((flagByte (noBorrowFlag a b)).toNat : Int) = if b.toNat ≤ a.toNat then 1 else 0 := by
  simp only [flagByte_toNat, noBorrowFlag, decide_eq_true_eq, Nat.cast_ite, Nat.cast_one, Nat.cast_zero]

/-- The least significant bit is the remainder of the halving (R168). -/
theorem flagByte_shiftedOutRight_toNat (b : Byte) : (flagByte (shiftedOutRight b)).toNat = b.toNat % 2 := by
  rw [flagByte_toNat, shiftedOutRight, BitVec.getLsbD, Nat.testBit_zero]
  simp only [decide_eq_true_eq]
  split <;> omega

/-- The most significant bit is the quotient by 128 (R170). -/
theorem flagByte_shiftedOutLeft_toNat (b : Byte) : (flagByte (shiftedOutLeft b)).toNat = b.toNat / 128 := by
  have := b.isLt
  rw [flagByte_toNat, shiftedOutLeft, BitVec.getLsbD, Nat.testBit_eq_decide_div_mod_eq]
  simp only [decide_eq_true_eq]
  split <;> omega

/-- The byte difference is the integer difference modulo 256 (R171). -/
theorem diffByte_toInt (a b : Byte) : ((diffByte a b).toNat : Int) = ((a.toNat : Int) - b.toNat) % 256 := by
  have := a.isLt; have := b.isLt
  rw [diffByte_toNat]
  split <;> omega

theorem State.shiftOperand_eq (s : State) (x y : Reg) :
    s.shiftOperand x y = if s.config.shiftSource = .vx then s.reg x else s.reg y := by
  cases h : s.config.shiftSource <;> simp [State.shiftOperand, h]

/-! An instruction that writes a register, or a register and then VF: what every register holds after it, and that nothing else changed. -/

theorem Frame.setReg {changed : List Part} {s t : State} (h : Frame changed s t) (hm : Part.v ∈ changed) (x : Reg) (b : Byte) :
    Frame changed s (t.setReg x b) :=
  { h with v := .inl hm }

section
variable {i : Instr} {s : State} {x : Reg} {b : Byte} {α : Type} {n : α}

/-- A result to `V[x]` alone. The registers are read through `value`, in whose terms the rule states the result. -/
theorem exec_writes_reg (value : Byte → α) (he : exec i s = .next (s.setReg x b)) (hb : value b = n) :
    ∃ t, exec i s = .next t ∧ (∀ k, value (t.reg k) = if k = x then n else value (s.reg k)) ∧ Frame [.v] s t := by
  refine ⟨_, he, fun k => ?_, (Frame.refl _ s).setReg (by decide) x b⟩
  rw [State.setReg_reg, apply_ite value, hb]

/-- A result to `V[x]` and then the flag to VF, where it remains when x is F (R21). -/
theorem exec_writes_reg_flag (value : Byte → α) {f : Bool} {m : α} (he : exec i s = .next (s.setRegFlag x b f))
    (hf : value (flagByte f) = m) (hb : value b = n) :
    ∃ t, exec i s = .next t ∧ (∀ k : Reg, value (t.reg k) = if k = 15 then m else if k = x then n else value (s.reg k)) ∧
      Frame [.v] s t := by
  refine ⟨_, he, fun k => ?_, ((Frame.refl _ s).setReg (by decide) x b).setReg (by decide) vf (flagByte f)⟩
  rw [State.setRegFlag_reg, apply_ite value, apply_ite value, hf, hb, vf]

end

/-- Settles O8: 6XNN writes the immediate, 7XNN the sum modulo 256, and neither writes a flag. -/
theorem immediatesLoadAndAdd : Obligations.ImmediatesLoadAndAdd :=
  ⟨fun _ h => decodeWord_of_mask_F000 h fun _ _ => rfl, fun _ h => decodeWord_of_mask_F000 h fun _ _ => rfl, fun x nn s =>
    ⟨exec_writes_reg id rfl rfl, exec_writes_reg BitVec.toNat rfl (sumByte_toNat (s.reg x) nn)⟩⟩

/-- Settles O9: each of the four writes its result to `V[X]` alone. -/
theorem assignAndLogicWriteOnlyX : Obligations.AssignAndLogicWriteOnlyX :=
  ⟨fun _ h => decodeWord_of_mask_F00F h fun _ _ => rfl, fun _ h => decodeWord_of_mask_F00F h fun _ _ => rfl,
    fun _ h => decodeWord_of_mask_F00F h fun _ _ => rfl, fun _ h => decodeWord_of_mask_F00F h fun _ _ => rfl, fun _ _ _ =>
    ⟨exec_writes_reg id rfl rfl, exec_writes_reg id rfl rfl, exec_writes_reg id rfl rfl, exec_writes_reg id rfl rfl⟩⟩

/-- Settles O10: the sum modulo 256, then its carry. -/
theorem addRegisterSetsCarry : Obligations.AddRegisterSetsCarry :=
  ⟨fun _ h => decodeWord_of_mask_F00F h fun _ _ => rfl, fun _ _ _ =>
    exec_writes_reg_flag BitVec.toNat rfl (flagByte_carryFlag_toNat _ _) (sumByte_toNat _ _)⟩

/-- Settles O11: the difference modulo 256, then its no-borrow flag. -/
theorem subtractSetsNoBorrow : Obligations.SubtractSetsNoBorrow :=
  ⟨fun _ h => decodeWord_of_mask_F00F h fun _ _ => rfl, fun _ _ _ =>
    exec_writes_reg_flag (fun b => (b.toNat : Int)) rfl (flagByte_noBorrowFlag_toInt _ _) (diffByte_toInt _ _)⟩

/-- Settles O12: as 8XY5, with the operands exchanged. -/
theorem reversedSubtractSetsNoBorrow : Obligations.ReversedSubtractSetsNoBorrow :=
  ⟨fun _ h => decodeWord_of_mask_F00F h fun _ _ => rfl, fun _ _ _ =>
    exec_writes_reg_flag (fun b => (b.toNat : Int)) rfl (flagByte_noBorrowFlag_toInt _ _) (diffByte_toInt _ _)⟩

/-- Settles O13: half of the value SHIFT_SOURCE selects, then its bit 0. -/
theorem shiftRightHalvesAndFlagsLsb : Obligations.ShiftRightHalvesAndFlagsLsb := by
  refine ⟨fun _ h => decodeWord_of_mask_F00F h fun _ _ => rfl, fun x y s => ?_⟩
  rw [← State.shiftOperand_eq]
  exact exec_writes_reg_flag BitVec.toNat rfl (flagByte_shiftedOutRight_toNat _) (halfByte_toNat _)

/-- Settles O14: twice the value SHIFT_SOURCE selects, modulo 256, then its bit 7. -/
theorem shiftLeftDoublesAndFlagsMsb : Obligations.ShiftLeftDoublesAndFlagsMsb := by
  refine ⟨fun _ h => decodeWord_of_mask_F00F h fun _ _ => rfl, fun x y s => ?_⟩
  rw [← State.shiftOperand_eq]
  exact exec_writes_reg_flag BitVec.toNat rfl (flagByte_shiftedOutLeft_toNat _) (doubleByte_toNat _)

end Sys2Proof.Machine

/-! Families 0xA, 0xB, 0xC: load index, indexed jump, random (R180 to R182). -/

namespace Sys2Proof

/-- A word of format NNN (R92) decodes to the instruction of its family nibble, with the address in its field. -/
theorem decodeWord_of_mask_F000_nnn {op value : Word} {i : Addr → Instr} (h : op &&& 0xF000 = value)
    (hi : ∀ nnn, encode (i nnn) = wordNNN (bits value 15 12) nnn) : decodeWord op = .ok (i (fieldNNN op)) := by
  have hk : bits op 15 12 = bits value 15 12 := bits_of_mask 15 12 h (by decide)
  exact decodeWord_eq_ok_iff.mpr ((hi _).trans (wordNNN_fields hk)).symm

theorem toNat_zext16_byte (b : Byte) : b.zext16.toNat = b.toNat := BitVec.toNat_setWidth_of_le (by decide)

/-- R181: no 16-bit overflow is possible in the target of BNNN. -/
theorem toNat_indexedTarget (b : Byte) (nnn : Addr) : (b.zext16 + nnn.zext16).toNat = b.toNat + nnn.toNat := by
  have hb := b.isLt; have hn := nnn.isLt
  rw [BitVec.toNat_add_of_lt (by rw [toNat_zext16_byte, toNat_zext16_addr]; omega), toNat_zext16_byte, toNat_zext16_addr]

/-- A masked byte has no bit outside the mask (R182). -/
theorem masked_and_not_mask (b nn : Byte) : b &&& nn &&& ~~~nn = 0 := by
  rw [BitVec.and_assoc, BitVec.and_not_self]
  exact BitVec.and_zero

end Sys2Proof

namespace Sys2Proof.Machine

section
variable {changed : List Part} {s t : State} (h : Frame changed s t)
include h

theorem Frame.setI (hm : Part.i ∈ changed) (a : Word) : Frame changed s (t.setI a) :=
  { h with i := .inl hm }

theorem Frame.countDraw (hm : Part.drawCount ∈ changed) : Frame changed s t.countDraw :=
  { h with drawCount := .inl hm }

end

/-- The draw is the host's where it gave one (R41). -/
theorem State.draw_of_rnd {s : State} {b : Byte} (h : s.rnd = some b) : s.draw = b := by
  rw [State.draw, h]

/-- What CXNN leaves in `V[X]`, whoever made the draw (R182). -/
theorem reg_masked_countDraw (s : State) (x : Reg) (nn : Byte) :
    ((s.setReg x (s.draw &&& nn)).countDraw).reg x = s.draw &&& nn := by
  rw [State.countDraw_reg, State.setReg_reg_same]

/-- Settles O16: the sum fits 16 bits, so it is exact, and at most 0xFF + 0xFFF. -/
theorem jumpIndexedAddsV0 : Obligations.JumpIndexedAddsV0 :=
  ⟨fun _ h => decodeWord_of_mask_F000_nnn h fun _ => rfl, fun nnn s =>
    ⟨s.setPc ((s.reg 0).zext16 + nnn.zext16), rfl, toNat_indexedTarget (s.reg 0) nnn, toNat_indexedTarget_le (s.reg 0) nnn,
      (Frame.refl _ s).setPc (by decide) _⟩⟩

/-- Settles O17: `V[X]` holds the draw AND NN, whoever made the draw, and no other register is written. -/
theorem randomMasksTheDraw : Obligations.RandomMasksTheDraw := by
  refine ⟨fun _ h => decodeWord_of_mask_F000 h fun _ _ => rfl, fun x nn s =>
    ⟨(s.setReg x (s.draw &&& nn)).countDraw, rfl, fun b hb => ?_, ?_, fun k hk => ?_, rfl,
      ((Frame.refl _ s).setReg (by decide) x _).countDraw (by decide)⟩⟩
  · rw [reg_masked_countDraw, State.draw_of_rnd hb]
  · rw [reg_masked_countDraw, masked_and_not_mask]
  · rw [State.countDraw_reg, State.setReg_reg_other s _ hk]

/-- Settles O15: `i` is the NNN field, zero extended. -/
theorem loadIndex : Obligations.LoadIndex :=
  ⟨fun _ h => decodeWord_of_mask_F000_nnn h fun _ => rfl, fun nnn s =>
    ⟨s.setI nnn.zext16, rfl, toNat_zext16_addr nnn, (Frame.refl _ s).setI (by decide) _⟩⟩

end Sys2Proof.Machine

/-! Family 0xD: the sprite XOR-blitter (R190 to R197). -/

namespace Sys2Proof.Machine

theorem Frame.setCollision {changed : List Part} {s t : State} (h : Frame changed s t) (hm : Part.v ∈ changed) (c : Bool) :
    Frame changed s (t.setCollision c) := by
  rcases setCollision_cases t c with ⟨-, e⟩ | ⟨-, e⟩ <;> rw [e]
  · exact h.setReg hm vf _
  · exact h

theorem setCollision_pixels (s : State) (c : Bool) : (s.setCollision c).pixels = s.pixels := by
  rcases setCollision_cases s c with ⟨-, e⟩ | ⟨-, e⟩ <;> rw [e]
  exact State.setReg_pixels s vf _

/-- Only VF is written, and only with COLLISION_FLAG (R194). -/
theorem setCollision_reg (s : State) (c : Bool) (k : Reg) :
    (s.setCollision c).reg k = if s.config.collisionFlag = true ∧ k = 15 then flagByte c else s.reg k := by
  rcases setCollision_cases s c with ⟨hc, e⟩ | ⟨hc, e⟩ <;> rw [e, hc]
  · simp only [true_and]
    exact State.setReg_reg s vf k _
  · simp only [Bool.false_eq_true, false_and, if_false]

section
variable (s : State) (x y : Reg) (n : Rows)

/-- The state DXYN leaves when all its rows lie in memory: `exec_drw_next` ties it to the instruction. -/
def State.drawn : State := (s.setPixels (s.blitted x y n).1).setCollision (s.blitted x y n).2

variable {s n} in
theorem exec_drw_next (h : n.val = 0 ∨ s.i.toNat + n.val ≤ 0x1000) : exec (.drw x y n) s = .next (s.drawn x y n) := by
  rw [exec, execDrw, rangeError_none s h, guardError_none, State.drawn]

/-! What the blitter does, in terms of the sprite that the statements speak of. -/

/-- The blitter's sprite bits are the in-bounds ones of the sprite at `i`. -/
theorem spriteBit_readBytes (px py : Nat) :
    spriteBit (s.memory.readBytes s.i.toNat n.val) ((s.reg x).toNat % 64) ((s.reg y).toNat % 32) px py =
      (decide (px < 64 ∧ py < 32) && s.spriteAt x y n px py) := by
  simp only [spriteBit, rowBit, State.spriteAt, Memory.length_readBytes]
  by_cases hr : (s.reg y).toNat % 32 ≤ py ∧ py < (s.reg y).toNat % 32 + n.val
  · rw [Memory.getD_readBytes s.memory s.i.toNat (by omega)]
    simp only [hr, and_true, true_and, decide_true, Bool.true_and, ← Bool.and_assoc, ← Bool.decide_and]
    congr 2
    simp only [eq_iff_iff]
    omega
  · simp [hr]

theorem blitted_get {px py : Nat} (hx : px < 64) (hy : py < 32) :
    Screen.get (s.blitted x y n).1 px py = (Screen.get s.pixels px py ^^ s.spriteAt x y n px py) := by
  rw [State.blitted, blitRows_get, spriteBit_readBytes, decide_eq_true ⟨hx, hy⟩, Bool.true_and]

theorem blitted_collided_iff : (s.blitted x y n).2 = true ↔
    ∃ px py, px < 64 ∧ py < 32 ∧ s.spriteAt x y n px py = true ∧ Screen.get s.pixels px py = true := by
  rw [State.blitted, blitRows_collided]
  simp only [spriteBit_readBytes, Bool.false_eq_true, false_or, Bool.and_eq_true, decide_eq_true_eq, and_assoc]

/-! What the drawn state holds: the pixels, the draw signal, the registers, and all the rest unchanged. -/

theorem drawn_get {px py : Nat} (hx : px < 64) (hy : py < 32) :
    Screen.get (s.drawn x y n).pixels px py = (Screen.get s.pixels px py ^^ s.spriteAt x y n px py) := by
  rw [State.drawn, setCollision_pixels]
  exact blitted_get s x y n hx hy

theorem drawn_drawPending : (s.drawn x y n).drawPending = true := setCollision_drawPending _ _

theorem drawn_reg (k : Reg) : (s.drawn x y n).reg k =
    if s.config.collisionFlag = true ∧ k = 15 then flagByte (s.blitted x y n).2 else s.reg k :=
  setCollision_reg _ _ k

theorem drawn_frame : Frame [.v, .pixels, .drawPending] s (s.drawn x y n) :=
  ((Frame.refl _ s).setPixels (by decide) (by decide) _).setCollision (by decide) _

theorem drawn_i : (s.drawn x y n).i = s.i := (drawn_frame s x y n).i.resolve_left (by decide)

/-- The next draw has the same sprite, unless the collision flag overwrites one of its coordinates (R196). -/
theorem spriteAt_drawn {x y : Reg} (h : s.config.collisionFlag = false ∨ (x ≠ 15 ∧ y ≠ 15)) (px py : Nat) :
    (s.drawn x y n).spriteAt x y n px py = s.spriteAt x y n px py := by
  have hreg (k : Reg) (hk : s.config.collisionFlag = false ∨ k ≠ 15) : (s.drawn x y n).reg k = s.reg k := by
    rw [drawn_reg, if_neg]
    rintro ⟨hc, rfl⟩
    simp [hc] at hk
  have hm := (drawn_frame s x y n).memory.resolve_left (by decide)
  simp only [State.spriteAt, hreg x (h.imp_right And.left), hreg y (h.imp_right And.right), drawn_i, hm]

end

theorem flagByte_eq_one_iff (f : Bool) : flagByte f = 1 ↔ f = true := by cases f <;> decide

/-- Settles O18: every cell is its old value XOR the sprite's bit there. -/
theorem drawTogglesExactlyTheSpriteCells : Obligations.DrawTogglesExactlyTheSpriteCells := by
  refine ⟨fun op h => ?_, fun x y n s h => ⟨s.drawn x y n, exec_drw_next x y h, fun px py hx hy => ?_,
    drawn_drawPending s x y n, drawn_frame s x y n⟩⟩
  · have hk : bits op 15 12 = 0xD := bits_of_mask 15 12 h (by decide)
    exact decodeWord_eq_ok_iff.mpr (wordXYN_fields hk rfl).symm
  · rw [drawn_get s x y n hx hy]
    cases s.spriteAt x y n px py <;> simp

/-- Settles O19: VF is written only with COLLISION_FLAG, and then holds the blitter's collision. -/
theorem drawCollisionFlag : Obligations.DrawCollisionFlag := by
  refine fun x y n s h => ⟨s.drawn x y n, exec_drw_next x y h, fun k hk => ?_, fun hc => ?_, fun hc => ?_⟩
  · rw [drawn_reg, if_neg fun e => hk e.2]
  · rw [drawn_reg, if_neg fun e => Bool.false_ne_true (hc.symm.trans e.1)]
  · rw [drawn_reg, if_pos ⟨hc, rfl⟩]
    exact ⟨flagByte_eq_zero_or_one _, (flagByte_eq_one_iff _).trans (blitted_collided_iff s x y n)⟩

/-- Settles O20: the range check of all N rows comes first. -/
theorem drawOutOfRangeIsRejected : Obligations.DrawOutOfRangeIsRejected := by
  intro x y n s a ha hn hi
  rw [exec, execDrw, rangeError_some s hn (by omega), guardError_some, instrAddr_of_pc ha]
  exact raise_rejects _ ha

/-- Settles O21: both draws have the same sprite, and XOR with it twice is the identity. -/
theorem drawTwiceRestoresTheScreen : Obligations.DrawTwiceRestoresTheScreen := by
  intro x y n s h hxy
  have hconfig : (s.drawn x y n).config = s.config := (drawn_frame s x y n).config.resolve_left (by decide)
  refine ⟨s.drawn x y n, (s.drawn x y n).drawn x y n, exec_drw_next x y h, exec_drw_next x y (by rwa [drawn_i]),
    Screen.ext_get fun px py hpx hpy => ?_, fun hc hcell => ?_⟩
  · rw [drawn_get _ x y n hpx hpy, drawn_get s x y n hpx hpy, spriteAt_drawn s n hxy, Bool.xor_assoc, Bool.xor_self,
      Bool.xor_false]
  · rw [drawn_reg, hconfig, if_pos ⟨hc, rfl⟩, flagByte_eq_one_iff, blitted_collided_iff]
    simpa only [spriteAt_drawn s n hxy] using hcell

end Sys2Proof.Machine

/-! Family 0xE: the skips on keys (R200 to R202). -/

namespace Sys2Proof

/-- A word of format X (R92) decodes to the instruction of its family nibble and low byte, with the register in its field. -/
theorem decodeWord_of_mask_F0FF {op value : Word} {i : Reg → Instr} (h : op &&& 0xF0FF = value)
    (hi : ∀ x, encode (i x) = wordX (bits value 15 12) x (bits value 7 0)) : decodeWord op = .ok (i (fieldX op)) := by
  have hk : bits op 15 12 = bits value 15 12 := bits_of_mask 15 12 h (by decide)
  have hf : bits op 7 0 = bits value 7 0 := bits_of_mask 7 0 h (by decide)
  exact decodeWord_eq_ok_iff.mpr ((hi _).trans (wordX_fields hk hf)).symm

end Sys2Proof

namespace Sys2Proof.Machine

/-- The key that `V[X]` names is the one numbered by its low four bits (R202). -/
theorem State.keyPressed_eq {s : State} {x : Reg} {k : Fin 16} (hk : k.val = (s.reg x).toNat % 16) : s.keyPressed x = s.keys[k] := by
  obtain rfl : k = keyIndex (s.reg x) := Fin.ext hk
  rfl

/-- Settles O22: both are skips, on the key being pressed and on it not being pressed. -/
theorem skipsOnKeys : Obligations.SkipsOnKeys := by
  refine ⟨fun op h => decodeWord_of_mask_F0FF h fun _ => rfl, fun op h => decodeWord_of_mask_F0FF h fun _ => rfl,
    fun x s k hk => ?_⟩
  rw [← State.keyPressed_eq hk]
  constructor
  · exact exec_skips (i := .skp x) rfl
  · simpa only [Bool.not_eq_true', ← Bool.not_eq_true, ite_not] using exec_skips (i := .sknp x) (s := s) rfl

end Sys2Proof.Machine

/-! Family 0xF: timers, key wait, index arithmetic, font, BCD, block copy (R210 to R218). -/

namespace Sys2Proof.Machine

section
variable {changed : List Part} {s t : State} (h : Frame changed s t)
include h

theorem Frame.setDelay (hm : Part.delayTimer ∈ changed) (b : Byte) : Frame changed s (t.setDelay b) :=
  { h with delayTimer := .inl hm }

theorem Frame.setSound (hm : Part.soundTimer ∈ changed) (b : Byte) : Frame changed s (t.setSound b) :=
  { h with soundTimer := .inl hm }

theorem Frame.awaitKey (hm : Part.awaitingKey ∈ changed) (hr : Part.awaitTargetRegister ∈ changed) (x : Reg) :
    Frame changed s (t.awaitKey x) :=
  { h with awaitingKey := .inl hm, awaitTargetRegister := .inl hr }

theorem Frame.setMemory (hm : Part.memory ∈ changed) (m : Memory) : Frame changed s (t.setMemory m) :=
  { h with memory := .inl hm }

theorem Frame.setRegs (hm : Part.v ∈ changed) (w : Vector Byte 16) : Frame changed s (t.setRegs w) :=
  { h with v := .inl hm }

end

/-! The timers (R210, R212, R213), the key wait (R211) and the index register (R214, R215). -/

/-- Settles O23: FX07 writes `V[X]` alone, FX15 and FX18 each one timer. -/
theorem timersReadAndWritten : Obligations.TimersReadAndWritten :=
  ⟨fun _ h => decodeWord_of_mask_F0FF h fun _ => rfl, fun _ h => decodeWord_of_mask_F0FF h fun _ => rfl,
    fun _ h => decodeWord_of_mask_F0FF h fun _ => rfl, fun x s =>
    ⟨exec_writes_reg id rfl rfl,
      ⟨s.setDelay (s.reg x), rfl, rfl, (Frame.refl _ s).setDelay (by decide) _⟩,
      ⟨s.setSound (s.reg x), rfl, rfl, (Frame.refl _ s).setSound (by decide) _⟩⟩⟩

/-- Settles O24: the wait is all that FX0A writes. -/
theorem keyWaitEntered : Obligations.KeyWaitEntered :=
  ⟨fun _ h => decodeWord_of_mask_F0FF h fun _ => rfl, fun x s =>
    ⟨s.awaitKey x, rfl, rfl, rfl, (Frame.refl _ s).awaitKey (by decide) (by decide) x⟩⟩

/-- Settles O25: the sum of a word and a zero-extended byte, modulo 2^16. -/
theorem addIndexWraps : Obligations.AddIndexWraps := by
  refine ⟨fun _ h => decodeWord_of_mask_F0FF h fun _ => rfl, fun x s =>
    ⟨s.setI (s.i + (s.reg x).zext16), rfl, ?_, (Frame.refl _ s).setI (by decide) _⟩⟩
  rw [State.setI_i, BitVec.toNat_add, toNat_zext16_byte]

/-- The glyph address is the exact sum of R215 where that fits the 16 bits of `i`. -/
theorem glyphAddress_toNat {s : State} {b : Byte} (h : 0x050 + s.config.glyphStride * b.toNat < 65536) :
    (s.glyphAddress b).toNat = 0x050 + s.config.glyphStride * b.toNat :=
  (BitVec.toNat_ofNat _ _).trans (Nat.mod_eq_of_lt h)

/-- Settles O26: with stride 5 the sum always fits, since a byte is at most 255. -/
theorem glyphAddressLookup : Obligations.GlyphAddressLookup := by
  refine ⟨fun _ h => decodeWord_of_mask_F0FF h fun _ => rfl, fun x s =>
    ⟨s.setI (s.glyphAddress (s.reg x)), rfl, glyphAddress_toNat, fun h5 => ?_, (Frame.refl _ s).setI (by decide) _⟩⟩
  have hlt := (s.reg x).isLt
  have haddr := glyphAddress_toNat (s := s) (b := s.reg x) (by rw [h5]; omega)
  rw [h5] at haddr
  exact ⟨haddr, by rw [State.setI_i, haddr]; omega⟩

/-! The instructions that access n bytes at `i` (R216 to R218): the range check, and what a store leaves in memory. -/

/-- With its whole range inside memory the instruction completes. -/
theorem guardError_in_range {s : State} {n : Nat} (h : s.i.toNat + n ≤ 0x1000) (k : Result) :
    guardError (s.rangeError n) s k = k := by
  rw [rangeError_none s (.inr h), guardError_none]

/-- Else it is fully rejected, reporting its own address and the first address above 0xFFF (R255). -/
theorem guardError_out_of_range {s : State} {a : Word} {n : Nat} (ha : s.pc = a + 2) (hi : 0x0FFF < s.i.toNat + n) (k : Result) :
    ∃ t, guardError (s.rangeError (n + 1)) s k = .next t ∧ Rejected a (.memoryOutOfRange a (max s.i.toNat 0x1000)) s t := by
  rw [rangeError_some s n.succ_pos (Nat.succ_lt_succ hi), guardError_some, instrAddr_of_pc ha]
  exact raise_rejects _ ha

section
variable {m : Memory} {a : Nat} {bs : List Byte} (hm : m.wf = true) (hr : a + bs.length ≤ Config.memSize)
include hm hr

theorem Memory.read_writeBytes_inside {k : Nat} (hk : k < bs.length) : (m.writeBytes a bs).read (a + k) = bs.getD k 0 := by
  rw [read_writeBytes _ hm (.inr hr), if_pos (by omega), Nat.add_sub_cancel_left]

theorem Memory.read_writeBytes_outside {b : Nat} (hb : b < a ∨ a + bs.length ≤ b) : (m.writeBytes a bs).read b = m.read b := by
  rw [read_writeBytes _ hm (.inr hr), if_neg (by omega)]

end

/-- Each digit fits a byte, so the bytes of FX33 are the digits themselves (R216). -/
theorem decimalDigits_toNat (b : Byte) :
    ((decimalDigits b).getD 0 0).toNat = b.toNat / 100 ∧ ((decimalDigits b).getD 1 0).toNat = b.toNat / 10 % 10 ∧
      ((decimalDigits b).getD 2 0).toNat = b.toNat % 10 := by
  have hb := b.isLt
  exact ⟨Nat.mod_eq_of_lt (by omega), Nat.mod_eq_of_lt (by omega), Nat.mod_eq_of_lt (by omega)⟩

/-- Settles O27: by the range check of the three bytes at `i`. -/
theorem bcdStoresThreeDigits : Obligations.BcdStoresThreeDigits := by
  refine ⟨fun _ h => decodeWord_of_mask_F0FF h fun _ => rfl, fun x s hm hi => ?_,
    fun x s a ha hi => guardError_out_of_range ha hi _⟩
  have hr : s.i.toNat + (decimalDigits (s.reg x)).length ≤ Config.memSize := Nat.succ_le_succ hi
  have hread {k : Nat} (hk : k < 3) := Memory.read_writeBytes_inside hm hr hk
  obtain ⟨hundreds, tens, ones⟩ := decimalDigits_toNat (s.reg x)
  refine ⟨_, guardError_in_range hr _, ?_, ?_, ?_, fun b hb => Memory.read_writeBytes_outside hm hr hb,
    (Frame.refl _ s).setMemory (by decide) _⟩
  · exact (congrArg BitVec.toNat (hread (k := 0) (by decide))).trans hundreds
  · exact (congrArg BitVec.toNat (hread (k := 1) (by decide))).trans tens
  · exact (congrArg BitVec.toNat (hread (k := 2) (by decide))).trans ones

/-- Settles O28: by the range check of the X + 1 bytes at `i`. -/
theorem blockStoreCopiesRegisters : Obligations.BlockStoreCopiesRegisters := by
  refine ⟨fun _ h => decodeWord_of_mask_F0FF h fun _ => rfl, fun x s hm hi => ?_,
    fun x s a ha hi => guardError_out_of_range ha hi _⟩
  have hl := length_regsUpTo s x
  refine ⟨_, exec_stRegs_next hi, fun k hk => read_writeBytes_regsUpTo s hm hi hk, fun b hb => ?_,
    (Frame.refl _ s).setMemory (by decide) _⟩
  exact Memory.read_writeBytes_outside hm (by rw [hl]; exact Nat.succ_le_succ hi) (by rw [hl]; exact hb)

/-- Registers loaded from a block hold its bytes up to X, and the others what they held (R218). -/
theorem writeRegs_readBytes_getElem (s : State) (m : Memory) (a : Nat) (x k : Reg) :
    (writeRegs s.v 0 (m.readBytes a (x.val + 1)))[k] = if k ≤ x then m.read (a + k.val) else s.reg k := by
  rw [Fin.getElem_fin, writeRegs_getElem, Memory.length_readBytes]
  by_cases hk : k ≤ x
  · have hlt : k.val < x.val + 1 := Nat.lt_succ_of_le hk
    rw [if_pos (by omega), if_pos hk, Nat.sub_zero, Memory.getD_readBytes m a hlt]
  · have hlt : x.val < k.val := Nat.lt_of_not_le hk
    rw [if_neg (by omega), if_neg hk]
    rfl

/-- Settles O29: by the range check of the X + 1 bytes at `i`. -/
theorem blockLoadCopiesMemory : Obligations.BlockLoadCopiesMemory :=
  ⟨fun _ h => decodeWord_of_mask_F0FF h fun _ => rfl,
    fun x s hi => ⟨_, guardError_in_range (Nat.succ_le_succ hi) _, writeRegs_readBytes_getElem s s.memory s.i.toNat x,
      (Frame.refl _ s).setRegs (by decide) _⟩,
    fun _ _ _ ha hi => guardError_out_of_range ha hi _⟩

/-- Settles O30: the load of `blockLoadCopiesMemory` reads the bytes that `blockStoreCopiesRegisters` stored, at the same `i`. -/
theorem storeLoadRoundTrip : Obligations.StoreLoadRoundTrip := by
  intro x s hm hi
  obtain ⟨-, hstore, -⟩ := blockStoreCopiesRegisters
  obtain ⟨-, hload, -⟩ := blockLoadCopiesMemory
  obtain ⟨t, ht, hread, -, hframe⟩ := hstore x s hm hi
  have hti : t.i = s.i := hframe.i.resolve_left (by decide)
  obtain ⟨u, hu, hreg, -⟩ := hload x (t.setRegs (Vector.replicate 16 0)) (by rwa [State.setRegs_i, hti])
  refine ⟨t, u, ht, hu, fun k => ?_⟩
  rw [hreg, State.setRegs_memory, State.setRegs_i, hti, State.setRegs_reg, Fin.getElem_fin, Vector.getElem_replicate]
  by_cases hk : k ≤ x
  · rw [if_pos hk, if_pos hk, hread k hk]
  · rw [if_neg hk, if_neg hk]

end Sys2Proof.Machine

/-! The host's operations (R230 to R234, R237). -/

namespace Sys2Proof.Machine

section
variable {changed : List Part} {s t : State} (h : Frame changed s t)
include h

theorem Frame.setKeySample (hm : Part.keys ∈ changed) (new : Vector Bool 16) : Frame changed s (t.setKeySample new) :=
  { h with keys := .inl hm }

theorem Frame.setDrawPending (hm : Part.drawPending ∈ changed) (b : Bool) : Frame changed s (t.setDrawPending b) :=
  { h with drawPending := .inl hm }

theorem Frame.resume (hm : Part.awaitingKey ∈ changed) : Frame changed s t.resume :=
  { h with awaitingKey := .inl hm }

end

/-- What every operation but `Reset` and a refused load begins with: it is taken off the pending ones, and the mark of a reset is gone. -/
theorem frame_taken_leaveReset (changed : List Part) (s : State) (rest : List HostOp) (hi : Part.inputs ∈ changed)
    (hj : Part.justReset ∈ changed) : Frame changed s (s.setInputs rest).leaveReset :=
  ((Frame.refl changed s).setInputs hi rest).leaveReset hj

/-! `SetKeys` (R231, R232). -/

theorem newlyPressed_eq_nil {s : State} {new : Vector Bool 16} (h : ∀ k : Fin 16, new[k] = true → s.keys[k] = true) :
    s.newlyPressed new = [] := by
  refine List.eq_nil_iff_forall_not_mem.mpr fun k hk => ?_
  obtain ⟨hnew, hold⟩ := (mem_newlyPressed s new k).mp hk
  rw [h k hnew] at hold
  cases hold

/-- The newly pressed keys begin with the lowest of them (D30). -/
theorem newlyPressed_eq_lowest_cons {s : State} {new : Vector Bool 16} {k : Fin 16} (hnew : new[k] = true) (hold : s.keys[k] = false)
    (hlow : ∀ j : Fin 16, j < k → new[j] = true → s.keys[j] = true) : ∃ ks, s.newlyPressed new = k :: ks := by
  have hk : k ∈ s.newlyPressed new := (mem_newlyPressed s new k).mpr ⟨hnew, hold⟩
  have hsorted := newlyPressed_sorted s new
  cases hl : s.newlyPressed new with
  | nil => rw [hl] at hk; cases hk
  | cons j js =>
    rw [hl] at hk hsorted
    obtain rfl | hmem := List.mem_cons.mp hk
    · exact ⟨js, rfl⟩
    · have hjk : j < k := (List.pairwise_cons.mp hsorted).1 k hmem
      obtain ⟨hj, hj'⟩ := (mem_newlyPressed s new j).mp (hl ▸ List.mem_cons_self)
      rw [hlow j hjk hj] at hj'
      cases hj'

/-- Without an awaited edge `SetKeys` only stores the sample. -/
theorem setKeys_of_no_edge {s : State} {new : Vector Bool 16} (h : s.awaitingKey = false ∨ s.newlyPressed new = []) :
    s.setKeys new = s.setKeySample new := by
  obtain ⟨k, ks, ha, hn, -⟩ | ⟨-, e⟩ := setKeys_cases s new
  · rw [ha, hn] at h
    obtain h | h := h <;> cases h
  · exact e

/-- An awaited edge is resolved with the first newly pressed key. -/
theorem setKeys_of_edge {s : State} {new : Vector Bool 16} {k : Fin 16} {ks : List (Fin 16)} (ha : s.awaitingKey = true)
    (hn : s.newlyPressed new = k :: ks) : s.setKeys new = (s.resolveWait k).setKeySample new := by
  rw [State.setKeys, ha, hn]

theorem step_setKeys {s : State} {new : Vector Bool 16} {rest : List HostOp} (hi : s.inputs = .setKeys new :: rest) :
    step s = .next ((s.setInputs rest).leaveReset.setKeys new) := step_cons hi

/-- Settles O49: without an awaited edge the sample is all that `SetKeys` writes. -/
theorem setKeysStoresTheSample : Obligations.SetKeysStoresTheSample := by
  intro s new rest hi h
  have hstep := step_setKeys hi
  rw [setKeys_of_no_edge (s := (s.setInputs rest).leaveReset) (h.imp id newlyPressed_eq_nil)] at hstep
  exact ⟨_, hstep, rfl, rfl, rfl, (frame_taken_leaveReset _ s rest (by decide) (by decide)).setKeySample (by decide) new⟩

theorem toNat_keyNumber (k : Fin 16) : (BitVec.ofNat 8 k.val).toNat = k.val := by
  rw [BitVec.toNat_ofNat, Nat.mod_eq_of_lt (by omega)]

/-- Settles O50: the lowest newly pressed key is the first of the list that resolves the wait. -/
theorem lowestKeyEdgeResolvesTheWait : Obligations.LowestKeyEdgeResolvesTheWait := by
  intro s new rest k hi ha hnew hold hlow
  obtain ⟨ks, hn⟩ := newlyPressed_eq_lowest_cons hnew hold hlow
  have hstep := step_setKeys hi
  rw [setKeys_of_edge (s := (s.setInputs rest).leaveReset) ha hn] at hstep
  refine ⟨_, hstep, rfl, rfl, rfl, rfl, fun r => ?_, ?_⟩
  · rw [State.setKeySample_reg, State.resolveWait, State.resume_reg, State.setReg_reg, apply_ite BitVec.toNat, toNat_keyNumber]
    rfl
  · exact (((frame_taken_leaveReset _ s rest (by decide) (by decide)).setReg (by decide) _ _).resume (by decide)).setKeySample
      (by decide) new

/-! `Tick` and `AckDraw` (R230, R233, R237). -/

/-- Settles O48: `Tick` takes one from both timers, whether or not the core awaits a key. -/
theorem tickDecrementsBothTimers : Obligations.TickDecrementsBothTimers := fun s rest hi =>
  ⟨(s.setInputs rest).leaveReset.tick, step_cons hi, tickTimer_toNat s.delayTimer, tickTimer_toNat s.soundTimer, rfl, rfl,
    ((frame_taken_leaveReset _ s rest (by decide) (by decide)).setDelay (by decide) _).setSound (by decide) _⟩

/-- Settles O51: the signal is all that `AckDraw` writes. -/
theorem ackDrawClearsTheSignal : Obligations.AckDrawClearsTheSignal := fun s rest hi =>
  ⟨(s.setInputs rest).leaveReset.ackDraw, step_cons hi, rfl, rfl, rfl,
    (frame_taken_leaveReset _ s rest (by decide) (by decide)).setDrawPending (by decide) false⟩

/-! `LoadProgram` (R234, D31). -/

theorem State.isAfterReset_iff (s : State) : s.isAfterReset = true ↔ s = s.afterReset := decide_eq_true_iff

theorem memory_wf_of_isAfterReset {s : State} (h : s.isAfterReset = true) : s.memory.wf = true := by
  rw [s.isAfterReset_iff.mp h]
  exact (afterReset_inv s).memory

theorem loadProgram_late {s : State} {bytes : List Byte} (h : s.isAfterReset = false) :
    s.loadProgram bytes = .refused .loadNotAfterReset := by
  rw [State.loadProgram, h]
  rfl

theorem loadProgram_oversized {s : State} {bytes : List Byte} (h : s.isAfterReset = true) (hl : Config.progMax < bytes.length) :
    s.loadProgram bytes = .next (s.setReport .loadRefused) := by
  rw [State.loadProgram, h, if_pos hl]
  rfl

theorem loadProgram_fitting {s : State} {bytes : List Byte} (h : s.isAfterReset = true) (hl : bytes.length ≤ Config.progMax) :
    s.loadProgram bytes = .next (s.leaveReset.setMemory (s.memory.writeBytes Config.progBase bytes)) := by
  rw [State.loadProgram, h, if_neg hl.not_gt]
  rfl

/-- Settles O52: at most 3584 bytes fit between 0x200 and the end of memory; more leave only the report. -/
theorem loadProgramPlacesTheBytes : Obligations.LoadProgramPlacesTheBytes := by
  intro s bytes rest hi hr
  refine ⟨fun hl => ?_, fun hl => ?_⟩
  · have hm : s.memory.wf = true := memory_wf_of_isAfterReset (s := s.setInputs rest) hr
    have hfit : Config.progBase + bytes.length ≤ Config.memSize := Nat.add_le_add_left hl 0x200
    refine ⟨_, (step_cons hi).trans (loadProgram_fitting hr hl), fun k hk => ?_,
      fun a ha => Memory.read_writeBytes_outside hm hfit ha, rfl, rfl,
      (frame_taken_leaveReset _ s rest (by decide) (by decide)).setMemory (by decide) _⟩
    exact (Memory.read_writeBytes_inside hm hfit hk).trans (List.getD_eq_getElem _ _ hk)
  · exact ⟨_, (step_cons hi).trans (loadProgram_oversized hr hl), rfl, rfl,
      ((Frame.refl _ s).setInputs (by decide) rest).setReport (by decide) _⟩

end Sys2Proof.Machine

/-! Errors and refusals (R250 to R255, R234), and what a step can do to the key wait and the timers (R211, R232, R267, R288). -/

namespace Sys2Proof.Machine

/-- Settles O36: by the constructors, each completed or rejected (`exec_answers_next`). -/
theorem everyInstructionAnswersNext : Obligations.EveryInstructionAnswersNext := exec_answers_next

/-! UnknownOpcode (R252). -/

/-- A word of no row does not decode (R94). -/
theorem decodeWord_error_of_not_recognised {op : Word} (h : op.recognised = false) : ∃ e, decodeWord op = .error e := by
  cases hd : decodeWord op with
  | error e => exact ⟨e, rfl⟩
  | ok i =>
    obtain ⟨hrow, -⟩ := decodeAgreesWithTheOpcodeMap
    obtain ⟨r, hr, hs, -⟩ := hrow op i hd
    have hrec : op.recognised = true := List.any_eq_true.mpr ⟨r, hr, hs⟩
    rw [h] at hrec
    cases hrec

theorem fetchWord_eq_of_toNat {s : State} {op : Word}
    (h : op.toNat = (s.memory.read s.pc.toNat).toNat * 256 + (s.memory.read (s.pc.toNat + 1)).toNat) : s.fetchWord = op :=
  BitVec.eq_of_toNat_eq ((wordOfBytes_toNat _ _).trans h.symm)

/-- Settles O34: the Step cycle ends at decode, with `pc` advanced and the report. -/
theorem unknownOpcodeAdvances : Obligations.UnknownOpcodeAdvances := by
  intro s rest op hs ha hp hop hrec
  obtain rfl := fetchWord_eq_of_toNat hop
  obtain ⟨e, hd⟩ := decodeWord_error_of_not_recognised hrec
  have hstep := step_of_stepPending hs (.inr (.inr fun x nn h => by rw [hd] at h; cases h))
  rw [engineStep_unknown (s := s.leaveReset) ha hp hd, mapNext_next] at hstep
  exact ⟨_, hstep, rfl, rfl, rfl, rfl, rfl,
    ((((Frame.refl _ s).leaveReset (by decide)).setPc (by decide) _).setReport (by decide) _).setInputs (by decide) rest⟩

/-! What an instruction and the Step cycle can do to the key wait, the timers and the report. -/

/-- The key wait and the timers stand as they stood. -/
structure SameWaitAndTimers (s t : State) : Prop where
  awaitingKey : t.awaitingKey = s.awaitingKey
  delayTimer : t.delayTimer = s.delayTimer
  soundTimer : t.soundTimer = s.soundTimer

theorem drawn_sameWaitAndTimers (s : State) (p : Screen) (c : Bool) :
    SameWaitAndTimers s ((s.setPixels p).setCollision c) ∧ ((s.setPixels p).setCollision c).report = s.report := by
  rcases setCollision_cases (s.setPixels p) c with ⟨-, e⟩ | ⟨-, e⟩ <;> rw [e] <;> exact ⟨⟨rfl, rfl, rfl⟩, rfl⟩

/-- An instruction leaves the key wait, the timers and the report alone, or is rejected, or is FX0A, FX15 or FX18. -/
theorem exec_next_cases {i : Instr} {s t : State} (h : exec i s = .next t) :
    (SameWaitAndTimers s t ∧ t.report = s.report) ∨ (∃ f, raise f s = .next t) ∨ (∃ x, i = .ldKey x ∧ t = s.awaitKey x) ∨
      (∃ x, i = .ldDT x ∧ t = s.setDelay (s.reg x)) ∨ ∃ x, i = .ldST x ∧ t = s.setSound (s.reg x) := by
  cases i
  case ldKey x => cases h; exact .inr (.inr (.inl ⟨x, rfl, rfl⟩))
  case ldDT x => cases h; exact .inr (.inr (.inr (.inl ⟨x, rfl, rfl⟩)))
  case ldST x => cases h; exact .inr (.inr (.inr (.inr ⟨x, rfl, rfl⟩)))
  case ret =>
    obtain ⟨-, rfl⟩ | hf := exec_ret_next h
    · exact .inl ⟨⟨rfl, rfl, rfl⟩, rfl⟩
    · exact .inr (.inl hf)
  case call nnn =>
    obtain ⟨-, rfl⟩ | hf := exec_call_next h
    · exact .inl ⟨⟨rfl, rfl, rfl⟩, rfl⟩
    · exact .inr (.inl hf)
  case drw x y n =>
    obtain rfl | hf := guardError_next h
    · exact .inl (drawn_sameWaitAndTimers s _ _)
    · exact .inr (.inl hf)
  case ldB | stRegs | ldRegs =>
    obtain rfl | hf := guardError_next h
    · exact .inl ⟨⟨rfl, rfl, rfl⟩, rfl⟩
    · exact .inr (.inl hf)
  case seImm | sneImm | seReg | sneReg | skp | sknp => cases h; rw [skipIf_eq]; exact .inl ⟨⟨rfl, rfl, rfl⟩, rfl⟩
  all_goals cases h; exact .inl ⟨⟨rfl, rfl, rfl⟩, rfl⟩

/-- An instruction that reports something new was rejected. -/
theorem exec_report {i : Instr} {s t : State} (h : exec i s = .next t) :
    t.report = s.report ∨ ∃ f, raise f s = .next t := by
  obtain ⟨-, hr⟩ | hf | ⟨x, -, rfl⟩ | ⟨x, -, rfl⟩ | ⟨x, -, rfl⟩ := exec_next_cases h
  · exact .inl hr
  · exact .inr hf
  · exact .inl rfl
  · exact .inl rfl
  · exact .inl rfl

/-- The Step cycle leaves the key wait and the timers alone, or fetches FX0A, FX15 or FX18 and executes it. -/
theorem engineStep_next_cases {s t : State} (h : engineStep s = .next t) :
    SameWaitAndTimers s t ∨ (∃ x, decodeWord s.fetchWord = .ok (.ldKey x) ∧ t = s.advanced.awaitKey x) ∨
      (∃ x, decodeWord s.fetchWord = .ok (.ldDT x) ∧ t = s.advanced.setDelay (s.reg x)) ∨
      ∃ x, decodeWord s.fetchWord = .ok (.ldST x) ∧ t = s.advanced.setSound (s.reg x) := by
  rcases engineStep_cases s with ⟨-, e⟩ | ⟨-, -, e⟩ | ⟨-, -, -, e⟩ | ⟨-, -, i, hd, e⟩ <;> rw [e] at h
  · cases h; exact .inl ⟨rfl, rfl, rfl⟩
  · cases h; exact .inl ⟨rfl, rfl, rfl⟩
  · cases h; exact .inl ⟨rfl, rfl, rfl⟩
  · obtain ⟨⟨ha, hdt, hst⟩, -⟩ | ⟨f, hf⟩ | ⟨x, rfl, rfl⟩ | ⟨x, rfl, rfl⟩ | ⟨x, rfl, rfl⟩ := exec_next_cases h
    · exact .inl ⟨ha, hdt, hst⟩
    · cases hf; exact .inl ⟨rfl, rfl, rfl⟩
    · exact .inr (.inl ⟨x, hd, rfl⟩)
    · exact .inr (.inr (.inl ⟨x, hd, rfl⟩))
    · exact .inr (.inr (.inr ⟨x, hd, rfl⟩))

/-! Rejected Steps (R253 to R255, D32). -/

/-- The Step cycle does not read the last report. -/
theorem engineStep_setReport (s : State) (r : Report) : engineStep (s.setReport r) = engineStep s := rfl

/-- An error raised by an executing instruction undoes the pre-advance of `pc`, so that only the report is new (R124). -/
theorem raise_advanced (f : Fault) (s : State) : raise f s.advanced = .next (s.setReport (.err f)) := by
  rw [raise_eq, State.advanced, State.setReport_pc, State.setPc_pc, BitVec.add_sub_cancel]
  rfl

/-- A Step that reports an error other than UnknownOpcode wrote nothing else. -/
theorem engineStep_rejected {s t : State} {f : Fault} (h : engineStep s = .next t) (hr : t.report = .err f)
    (hf : ∀ a op, f ≠ .unknownOpcode a op) : t = s.setReport (.err f) := by
  rcases engineStep_cases s with ⟨-, e⟩ | ⟨-, -, e⟩ | ⟨-, -, -, e⟩ | ⟨-, -, i, -, e⟩ <;> rw [e] at h
  · cases h; cases hr
  · cases h; cases hr; rfl
  · cases h; cases hr; exact absurd rfl (hf _ _)
  · obtain hk | ⟨g, hg⟩ := exec_report h
    · rw [hr] at hk; cases hk
    · rw [raise_advanced] at hg; cases hg; cases hr; rfl

/-- A Step that executes CXNN reports Ok: it has no error. -/
theorem step_rnd_report {s t : State} {rest : List HostOp} {x : Reg} {nn : Byte} (hs : s.stepPending rest) (ha : s.awaitingKey = false)
    (hp : s.pc.toNat ≤ 0x0FFE) (hd : decodeWord s.fetchWord = .ok (.rnd x nn)) (h : step s = .next t) : t.report = .ok := by
  obtain ⟨hi, -⟩ | ⟨-, b, hi⟩ := hs
  · rw [step_nil hi, engineStep_exec (s := s.leaveReset) ha hp hd] at h
    cases h; rfl
  · rw [step_of_hostStep hi, engineStep_exec (s := (s.setInputs rest).leaveReset.setRnd (some b)) ha hp hd] at h
    cases h; rfl

/-- A Step that reports an error is the Step cycle whatever the draw: it does not execute CXNN. -/
theorem step_draw_free_of_err {s t : State} {rest : List HostOp} {f : Fault} (hs : s.stepPending rest) (h : step s = .next t)
    (hr : t.report = .err f) :
    s.awaitingKey = true ∨ 0x0FFE < s.pc.toNat ∨ ∀ x nn, decodeWord s.fetchWord ≠ .ok (.rnd x nn) := by
  by_contra hc
  push Not at hc
  obtain ⟨ha, hp, x, nn, hd⟩ := hc
  rw [step_rnd_report hs (eq_false_of_ne_true ha) hp hd h] at hr
  cases hr

/-- Settles O35: the state is unchanged but for the report, which the Step cycle does not read. -/
theorem rejectedStepRepeats : Obligations.RejectedStepRepeats := by
  intro s t rest f hs h hr hf
  have hfree := step_draw_free_of_err hs h hr
  rw [step_of_stepPending hs hfree] at h
  obtain ⟨u, hu⟩ := engineStep_answers_next s.leaveReset
  rw [hu, mapNext_next] at h
  cases h
  obtain rfl := engineStep_rejected hu hr hf
  refine ⟨rfl, rfl, frame_reported s (.err f) rest, by cases f <;> rfl, fun ops rest' hs' => ?_⟩
  have hagain := step_of_stepPending hs' hfree
  have he : engineStep ((s.leaveReset.setReport (.err f)).setInputs ops) = .next ((s.leaveReset.setReport (.err f)).setInputs ops) := by
    rw [engineStep_setInputs, engineStep_setReport, hu, mapNext_next]
  exact hagain.trans (congrArg (mapNext (State.setInputs · rest')) he)

/-! Loads (R234, D31). -/

theorem justReset_of_isAfterReset {s : State} (h : s.isAfterReset = true) : s.justReset = true := by
  rw [s.isAfterReset_iff.mp h]
  rfl

theorem perform_answers_next {op : HostOp} {s : State} (h : ∀ bytes, op = .loadProgram bytes → s.isAfterReset = true) :
    ∃ t, perform op s = .next t := by
  cases op with
  | loadProgram bytes =>
    have hr := h bytes rfl
    by_cases hl : bytes.length ≤ Config.progMax
    · exact ⟨_, loadProgram_fitting hr hl⟩
    · exact ⟨_, loadProgram_oversized hr (Nat.lt_of_not_le hl)⟩
  | step b => exact stepWithDraw_answers_next b s.leaveReset
  | reset | setKeys new | tick | ackDraw => exact ⟨_, rfl⟩

/-- A step after which `justReset` stands was a `Reset`, or a load refused for its length. -/
theorem step_justReset {s t : State} (h : step s = .next t) (hj : t.justReset = true) :
    (∃ rest, s.inputs = .reset :: rest) ∨
      ∃ bytes rest, s.inputs = .loadProgram bytes :: rest ∧ 3584 < bytes.length ∧ (s.setInputs rest).isAfterReset = true := by
  cases step_next h with
  | reset hi => exact .inl ⟨_, hi⟩
  | loadRefused hi hr hl => exact .inr ⟨_, _, hi, hl, hr⟩
  | ownStep hi he => rw [(engineStep_keeps he).justReset] at hj; cases hj
  | hostStep hi he => rw [State.setRnd_justReset, (engineStep_keeps he).justReset] at hj; cases hj
  | setKeys hi => rw [setKeys_leaveReset_justReset] at hj; cases hj
  | loaded hi | tick hi | ackDraw hi => cases hj

/-- Settles O37: by the operation performed; the mark of a reset stands after no other. -/
theorem onlyALateLoadIsRefused : Obligations.OnlyALateLoadIsRefused := by
  refine ⟨fun s h => ?_, fun s bytes rest hi hr => (step_cons hi).trans (loadProgram_late hr),
    fun s t h ht => step_justReset h (justReset_of_isAfterReset ht)⟩
  cases hi : s.inputs with
  | nil => exact step_nil hi ▸ engineStep_answers_next s.leaveReset
  | cons op rest => exact step_cons hi ▸ perform_answers_next fun bytes e => h bytes rest (e ▸ hi)

/-! The key wait (R267, R211, R232). -/

/-- The Step cycle keeps the key wait, or enters it with FX0A. -/
theorem engineStep_awaitingKey {s t : State} (h : engineStep s = .next t) :
    t.awaitingKey = s.awaitingKey ∨
      (t.awaitingKey = true ∧ decodeWord s.fetchWord = .ok (.ldKey t.awaitTargetRegister)) := by
  obtain hk | ⟨x, hd, rfl⟩ | ⟨x, -, rfl⟩ | ⟨x, -, rfl⟩ := engineStep_next_cases h
  · exact .inl hk.awaitingKey
  · exact .inr ⟨rfl, hd⟩
  · exact .inl rfl
  · exact .inl rfl

/-- `SetKeys` keeps the key wait, or ends it on a newly pressed key. -/
theorem setKeys_awaitingKey (s : State) (new : Vector Bool 16) :
    (s.setKeys new).awaitingKey = s.awaitingKey ∨
      ((s.setKeys new).awaitingKey = false ∧ ∃ k : Fin 16, new[k] = true ∧ s.keys[k] = false) := by
  obtain ⟨k, ks, -, hn, e⟩ | ⟨-, e⟩ := setKeys_cases s new <;> rw [e]
  · exact .inr ⟨rfl, k, (mem_newlyPressed s new k).mp (hn ▸ List.mem_cons_self)⟩
  · exact .inl rfl

/-- One step keeps the key wait, or ends it as `SetKeys` with a newly pressed key or as `Reset`, or enters it as a Step that fetches FX0A. -/
theorem step_awaitingKey {s t : State} (h : step s = .next t) :
    t.awaitingKey = s.awaitingKey ∨
    (t.awaitingKey = false ∧ ((∃ new rest, s.inputs = .setKeys new :: rest ∧ ∃ k : Fin 16, new[k] = true ∧ s.keys[k] = false) ∨
      ∃ rest, s.inputs = .reset :: rest)) ∨
    (t.awaitingKey = true ∧ (s.inputs = [] ∨ ∃ rnd rest, s.inputs = .step rnd :: rest) ∧
      decodeWord s.fetchWord = .ok (.ldKey t.awaitTargetRegister)) := by
  cases step_next h with
  | ownStep hi he => exact (engineStep_awaitingKey he).imp id fun ⟨ht, hd⟩ => .inr ⟨ht, .inl hi, hd⟩
  | hostStep hi he => exact (engineStep_awaitingKey he).imp id fun ⟨ht, hd⟩ => .inr ⟨ht, .inr ⟨_, _, hi⟩, hd⟩
  | reset hi => exact .inr (.inl ⟨rfl, .inr ⟨_, hi⟩⟩)
  | setKeys hi => exact (setKeys_awaitingKey _ _).imp id fun ⟨ht, hk⟩ => .inl ⟨ht, .inl ⟨_, _, hi, hk⟩⟩
  | loadRefused hi | loaded hi | tick hi | ackDraw hi => exact .inl rfl

/-- Settles O43: of the three things a step can do to the key wait, one ends it. -/
theorem onlyAKeyEdgeWakesTheCore : Obligations.OnlyAKeyEdgeWakesTheCore := by
  intro s t ha h ht
  obtain hk | ⟨-, hi⟩ | ⟨ht', -⟩ := step_awaitingKey h
  · rw [hk, ha] at ht; cases ht
  · exact hi
  · rw [ht] at ht'; cases ht'

/-- Settles O44: of the three things a step can do to the key wait, one enters it. -/
theorem onlyKeyWaitSuspends : Obligations.OnlyKeyWaitSuspends := by
  intro s t ha h ht
  obtain hk | ⟨ht', -⟩ | ⟨-, hi⟩ := step_awaitingKey h
  · rw [hk, ha] at ht; cases ht
  · rw [ht] at ht'; cases ht'
  · exact hi

/-! The timers (R288). -/

/-- The Step cycle keeps each timer, or fetches its writer. -/
theorem engineStep_timers {s t : State} (h : engineStep s = .next t) :
    (t.delayTimer = s.delayTimer ∨ ∃ x, decodeWord s.fetchWord = .ok (.ldDT x)) ∧
      (t.soundTimer = s.soundTimer ∨ ∃ x, decodeWord s.fetchWord = .ok (.ldST x)) := by
  obtain hk | ⟨x, -, rfl⟩ | ⟨x, hd, rfl⟩ | ⟨x, hd, rfl⟩ := engineStep_next_cases h
  · exact ⟨.inl hk.delayTimer, .inl hk.soundTimer⟩
  · exact ⟨.inl rfl, .inl rfl⟩
  · exact ⟨.inr ⟨x, hd⟩, .inl rfl⟩
  · exact ⟨.inl rfl, .inr ⟨x, hd⟩⟩

theorem setKeys_timers (s : State) (new : Vector Bool 16) :
    (s.setKeys new).delayTimer = s.delayTimer ∧ (s.setKeys new).soundTimer = s.soundTimer := by
  obtain ⟨k, ks, -, -, e⟩ | ⟨-, e⟩ := setKeys_cases s new <;> rw [e] <;> exact ⟨rfl, rfl⟩

theorem tickTimer_le (b : Byte) : (tickTimer b).toNat ≤ b.toNat := (tickTimer_toNat b).trans_le (Nat.sub_le _ _)

/-- One step raises neither timer, but a Step may that fetches its writer. -/
theorem step_timers {s t : State} (h : step s = .next t) :
    (t.delayTimer.toNat ≤ s.delayTimer.toNat ∨
      ((s.inputs = [] ∨ ∃ rnd rest, s.inputs = .step rnd :: rest) ∧ ∃ x, decodeWord s.fetchWord = .ok (.ldDT x))) ∧
    (t.soundTimer.toNat ≤ s.soundTimer.toNat ∨
      ((s.inputs = [] ∨ ∃ rnd rest, s.inputs = .step rnd :: rest) ∧ ∃ x, decodeWord s.fetchWord = .ok (.ldST x))) := by
  cases step_next h with
  | ownStep hi he =>
    obtain ⟨hd, hs⟩ := engineStep_timers he
    exact ⟨hd.imp (fun e => (congrArg BitVec.toNat e).le) fun hw => ⟨.inl hi, hw⟩,
      hs.imp (fun e => (congrArg BitVec.toNat e).le) fun hw => ⟨.inl hi, hw⟩⟩
  | hostStep hi he =>
    obtain ⟨hd, hs⟩ := engineStep_timers he
    exact ⟨hd.imp (fun e => (congrArg BitVec.toNat e).le) fun hw => ⟨.inr ⟨_, _, hi⟩, hw⟩,
      hs.imp (fun e => (congrArg BitVec.toNat e).le) fun hw => ⟨.inr ⟨_, _, hi⟩, hw⟩⟩
  | reset hi => exact ⟨.inl (Nat.zero_le _), .inl (Nat.zero_le _)⟩
  | @setKeys new rest hi =>
    obtain ⟨hd, hs⟩ := setKeys_timers (s.setInputs rest).leaveReset new
    exact ⟨.inl (hd ▸ le_rfl), .inl (hs ▸ le_rfl)⟩
  | tick hi => exact ⟨.inl (tickTimer_le _), .inl (tickTimer_le _)⟩
  | loadRefused hi | loaded hi | ackDraw hi => exact ⟨.inl le_rfl, .inl le_rfl⟩

/-- Settles O45: by the two things a step can do to each timer. -/
theorem timersRiseOnlyByTheirWriters : Obligations.TimersRiseOnlyByTheirWriters := by
  intro s t h
  obtain ⟨hd, hs⟩ := step_timers h
  exact ⟨fun hlt => hd.resolve_left hlt.not_ge, fun hlt => hs.resolve_left hlt.not_ge⟩

end Sys2Proof.Machine

/-! `Reset` (R280, R281). -/

namespace Sys2Proof.Machine

/-- The font as a list has its whole range inside memory. -/
theorem font_fits (font : Vector Byte 80) : Config.fontBase + font.toList.length ≤ Config.memSize := by
  rw [Vector.length_toList]
  decide

/-- Reset memory holds the font from 0x050 up (R280, D14). -/
theorem Memory.read_afterReset_font (font : Vector Byte 80) (k : Fin 80) : (Memory.afterReset font).read (0x050 + k.val) = font[k] := by
  have hk : k.val < font.toList.length := by rw [Vector.length_toList]; exact k.isLt
  refine (read_writeBytes_inside rfl (font_fits font) hk).trans ?_
  rw [List.getD_eq_getElem _ _ hk, Vector.getElem_toList, Fin.getElem_fin]

/-- Reset memory is zero everywhere else (R280). -/
theorem Memory.read_afterReset_zero (font : Vector Byte 80) {a : Nat} (ha : a < 0x050 ∨ 0x09F < a) :
    (Memory.afterReset font).read a = 0 := by
  have hout : a < Config.fontBase ∨ Config.fontBase + font.toList.length ≤ a := by
    rw [Vector.length_toList]
    exact ha
  refine (read_writeBytes_outside rfl (font_fits font) hout).trans ?_
  rw [read, unlisted, if_neg (by simp only [Config.fontBase]; omega)]

/-- A `Reset` on the state that `Reset` left changes nothing (R281). -/
theorem afterReset_isAfterReset (s : State) : s.afterReset.isAfterReset = true := s.afterReset.isAfterReset_iff.mpr rfl

/-- Settles O53: memory by its two reads, the mark by idempotence, the rest as written out in `State.reset`. -/
theorem resetOperationReestablishesTheTable : Obligations.ResetOperationReestablishesTheTable := fun s rest hi =>
  ⟨(s.setInputs rest).afterReset, step_cons hi, fun _ => Vector.getElem_replicate _, rfl, rfl, fun _ => Vector.getElem_replicate _, rfl,
    rfl, rfl, Memory.read_afterReset_font s.config.font, fun _ => Memory.read_afterReset_zero s.config.font, Screen.get_blank,
    fun _ => Vector.getElem_replicate _, rfl, rfl, rfl, rfl, rfl, afterReset_isAfterReset _⟩

/-- With the default font, reset memory lists nothing: every byte reads as unlisted. -/
theorem Memory.afterReset_specVectors : Memory.afterReset Config.specVectors.font = [] := by decide

/-- The start state is the one that `Reset` leaves. -/
theorem afterReset_reset : State.reset.afterReset = State.reset :=
  congrArg State.reset.setMemory Memory.afterReset_specVectors

/-- Settles O54: the start state is what a `Reset` leaves of it, so it holds the table of `resetOperationReestablishesTheTable`. -/
theorem resetStateIsTheTable : Obligations.ResetStateIsTheTable := by
  have hstep : step (State.reset.setInputs [.reset]) = .next State.reset := congrArg Host.Outcome.next afterReset_reset
  obtain ⟨t, ht, hv, hpc, hi, hst, hn, hdt, hso, hfont, hzero, hpix, hkeys, haw, htr, hdp, -⟩ :=
    resetOperationReestablishesTheTable (State.reset.setInputs [.reset]) [] rfl
  obtain rfl := Host.Outcome.next.inj (ht.symm.trans hstep)
  exact ⟨hv, hpc, hi, hst, hn, hdt, hso, hfont, hzero, hpix, hkeys, haw, htr, hdp⟩

end Sys2Proof.Machine
